-- ==== Sys2Proof/Word.lean ====
section
/-! DEFINITION. The CLCB's word types: the 32-bit word of the two memories and of a stimulus (20_memory.md R61, R64,
30_encoding.md R80) and the 14-bit analog reading (10_state.md R22). A count of microseconds is a natural number, as R21 of 10_state.md
allows (log entry 6). -/

namespace Sys2Proof

/-- A 32-bit word: a stimulus word, a note word or a colour word (30_encoding.md R81, R90, R91). -/
abbrev Word := BitVec 32

/-- An analog reading, ADC_W = 14 bits, unsigned (10_state.md R22; 00_scope.md R8). -/
abbrev Reading := BitVec 14

end Sys2Proof
end

