-- ==== Sys2Proof/Config.lean ====
section
/-! DEFINITION. The implementation parameters of 00_scope.md R8 as the fields of one configuration record, each of a type that
holds exactly the values R8 admits for it; and the free values, the constants without a body. -/

namespace Sys2Proof

/-- ROW_VARIANT: which reading of the row formula is built (00_scope.md R8; 41_coordinate_mapper.md R115, R117). -/
inductive RowVariant where
  | double
  | single
deriving DecidableEq, Repr

/-- MELREQ_CLEAR: when a melody-request flag is cleared (00_scope.md R8; 20_memory.md R74). -/
inductive MelreqClear where
  | start
  | atEnd
deriving DecidableEq, Repr

/-- PERIOD in its range, 5 to 16384 (R8, R274 c). -/
abbrev LegalPeriod := { p : Nat // 5 ≤ p ∧ p ≤ 16384 }

/-- A colour in its range: not 0 (R8, R274 c). -/
abbrev LegalColour := { w : Word // (w == 0#32) = false }

/-- A melody in its range: at most 255 note words (R8, R274 c; 30_encoding.md R90). -/
abbrev LegalMelody := { ws : List Word // ws.length ≤ 255 }

/-- A parameter to which R8 gives one value: the type of the values equal to it (log entry 26). -/
abbrev Fixed {α : Type} (v : α) := { x : α // x = v }

/-- The value R8 gives a parameter. -/
abbrev Fixed.given {α : Type} (v : α) : Fixed v := ⟨v, rfl⟩

/-- The configuration record of 00_scope.md R8. Written by no step (10_state.md R20). A configuration outside R8's ranges, which the spec
refuses (93_implementation_defined.md U16), is no value of this type (log entry 21). LEN_k is the length of MEL_k
(Machine/Operands.lean `melodyLen`). -/
structure Config where
  /-- PERIOD, the exclusive upper bound of a reading. -/
  legalPeriod : LegalPeriod
  /-- ROW_VARIANT. -/
  rowVariant : RowVariant
  /-- MELREQ_CLEAR. -/
  melreqClear : MelreqClear
  /-- RGB_EN_RESET. -/
  rgbEnReset : Bool
  /-- COLOR_1. -/
  legalColour1 : LegalColour
  /-- COLOR_2. -/
  legalColour2 : LegalColour
  /-- COLOR_3. -/
  legalColour3 : LegalColour
  /-- MEL_1. -/
  legalMel1 : LegalMelody
  /-- MEL_2. -/
  legalMel2 : LegalMelody
  /-- MEL_3. -/
  legalMel3 : LegalMelody
  /-- ADC_W, the width of a reading: that of the type `Reading`. -/
  adcW : Fixed 14 := Fixed.given 14
  /-- DISP_W and DISP_H, the display extent in pixels. -/
  dispW : Fixed 128 := Fixed.given 128
  dispH : Fixed 64 := Fixed.given 64
  /-- OFFSET, subtracted after scaling. -/
  offset : Fixed 4 := Fixed.given 4
  /-- GLYPH, the side of the cursor glyph. -/
  glyph : Fixed 8 := Fixed.given 8
  /-- MARGIN, the lower clamp bound. -/
  margin : Fixed 4 := Fixed.given 4
  /-- BORDER: "no rule uses it" (R8). -/
  border : Fixed 3 := Fixed.given 3
  /-- DZ_THR, the deadzone threshold. -/
  dzThr : Fixed 250 := Fixed.given 250
  /-- N_ROW, N_COL and N_CELL of the LED matrix. -/
  nRow : Fixed 5 := Fixed.given 5
  nCol : Fixed 5 := Fixed.given 5
  nCell : Fixed 25 := Fixed.given 25
  /-- T_RGB, T_DEB, T_LOOP and T_GAP in microseconds (R9: one millisecond is exactly 1000 units of `T`). -/
  tRgb : Fixed 300000 := Fixed.given 300000
  tDeb : Fixed 200000 := Fixed.given 200000
  tLoop : Fixed 50000 := Fixed.given 50000
  tGap : Fixed 20000 := Fixed.given 20000
  /-- REST, the rest marker: a frequency (30_encoding.md R90). -/
  restMark : Fixed 0#16 := Fixed.given 0#16
deriving DecidableEq, Repr

/-- PERIOD, COLOR_k and MEL_k as plain values. -/
def Config.period (c : Config) : Nat := c.legalPeriod.val
def Config.colour1 (c : Config) : Word := c.legalColour1.val
def Config.colour2 (c : Config) : Word := c.legalColour2.val
def Config.colour3 (c : Config) : Word := c.legalColour3.val
def Config.mel1 (c : Config) : List Word := c.legalMel1.val
def Config.mel2 (c : Config) : List Word := c.legalMel2.val
def Config.mel3 (c : Config) : List Word := c.legalMel3.val

/-- Free value (log entry 3): the OPEN colours of R8, before the spec's demand that they be non-zero. No body: nothing may be proved of it. -/
opaque Config.freeColour : Nat → Word

/-- Free value (log entry 3): the OPEN melodies of R8, before the spec's bound on their length. No body. -/
opaque Config.freeMelody : Nat → List Word

/-- COLOR_k of the default configuration: any non-zero word (R8, D11). -/
def Config.openColour (k : Nat) : LegalColour :=
  if h : (Config.freeColour k == 0#32) = false then ⟨Config.freeColour k, h⟩ else ⟨1#32, rfl⟩

/-- MEL_k of the default configuration: any list of at most 255 note words (R8, D23, D24). -/
def Config.openMelody (k : Nat) : LegalMelody := ⟨(Config.freeMelody k).take 255, List.length_take_le 255 _⟩

/-- The default configuration of R8 (log entries 3 and 4). -/
def Config.default : Config :=
  { legalPeriod := ⟨4096, by decide⟩, rowVariant := .double, melreqClear := .start, rgbEnReset := true,
    legalColour1 := Config.openColour 1, legalColour2 := Config.openColour 2, legalColour3 := Config.openColour 3,
    legalMel1 := Config.openMelody 1, legalMel2 := Config.openMelody 2, legalMel3 := Config.openMelody 3 }

/-! ### Free values of results (log entries 18 and 19), each applied to the count of free values drawn before it -/

/-- A cursor coordinate of a reading at or above PERIOD, for which R111 states none. No body. -/
opaque Config.freeCurX : Nat → BitVec 8
opaque Config.freeCurY : Nat → BitVec 8

/-- A matrix row or column of such a reading (R115). No body. -/
opaque Config.freeCellRow : Nat → BitVec 4
opaque Config.freeCellCol : Nat → BitVec 4

/-- The serpentine index of a cell outside the grid, for which R131 states none. No body. -/
opaque Config.freeIndex : Nat → Nat

/-- `cyc - 1` at `cyc` = 0, which does not fit its register (R10, R189). No body. -/
opaque Config.freeCyc : Nat → BitVec 32

/-- `ni + 1` at `ni` = 255, which does not fit its register (R10, R192). No body. -/
opaque Config.freeNi : Nat → BitVec 8

end Sys2Proof
end

