-- ==== Sys2Proof/Syntax.lean ====
section
/-! DEFINITION. The operations of the CLCB, one constructor per row of spec/opcode_table.json (30_encoding.md R98), and the
three operation formats they are encoded in (30_encoding.md R80). -/

namespace Sys2Proof

/-- The two buttons; the one-bit id of 30_encoding.md R84 is 0 for A and 1 for B. -/
inductive Button where
  | a
  | b
deriving DecidableEq, Repr

/-- The number of a melody, of a request flag and of a service slot: 1, 2 or 3 (30_encoding.md R89). -/
inductive MelodyNo where
  | one
  | two
  | three
deriving DecidableEq, Repr

/-- The operations. The four stimuli of the environment come first (STIM), then MAIN's phases (PHASE), the note sequencer's states
(MSTATE), and the five contract functions of the source (FUNC), whose operands are their arguments. -/
inductive Instr where
  /-- RST, 70_reset_and_hazards.md R270. -/
  | rst
  /-- ADV n, 46_main_sequencer.md R208. -/
  | adv (n : BitVec 28)
  /-- BTN A, 44_debounce_mode.md R165. -/
  | btnA
  /-- BTN B, 44_debounce_mode.md R165. -/
  | btnB
  /-- JOY x, y, 46_main_sequencer.md R210. -/
  | joy (x y : Reading)
  /-- PH_INIT, 70_reset_and_hazards.md R273. -/
  | phInit
  /-- PH_RGB, 43_rgb_cycle.md R147. -/
  | phRgb
  /-- PH_SAMPLE, 46_main_sequencer.md R214. -/
  | phSample
  /-- PH_MAPD, 41_coordinate_mapper.md R112. -/
  | phMapd
  /-- PH_MAPM, 41_coordinate_mapper.md R116. -/
  | phMapm
  /-- PH_DZ, 41_coordinate_mapper.md R120. -/
  | phDz
  /-- PH_MBUF, 42_matrix_addressing.md R133. -/
  | phMbuf
  /-- PH_MSEND, 42_matrix_addressing.md R135. -/
  | phMsend
  /-- PH_DRAW, 46_main_sequencer.md R215. -/
  | phDraw
  /-- PH_SVC1, 46_main_sequencer.md R216. -/
  | phSvc1
  /-- PH_SVC2, 46_main_sequencer.md R217. -/
  | phSvc2
  /-- PH_SVC3, 46_main_sequencer.md R218. -/
  | phSvc3
  /-- PH_PLAY, 45_melody_sequencer.md R181. -/
  | phPlay
  /-- PH_SLEEP, 46_main_sequencer.md R219. -/
  | phSleep
  /-- M_IDLE, 45_melody_sequencer.md R181. -/
  | mIdle
  /-- M_FETCH, 45_melody_sequencer.md R183. -/
  | mFetch
  /-- M_HIGH, 45_melody_sequencer.md R188. -/
  | mHigh
  /-- M_LOW, 45_melody_sequencer.md R189. -/
  | mLow
  /-- M_REST, 45_melody_sequencer.md R190. -/
  | mRest
  /-- M_GAP, 45_melody_sequencer.md R192. -/
  | mGap
  /-- map_to_display(x, y), 41_coordinate_mapper.md R111. -/
  | mapToDisplay (x y : Reading)
  /-- map_to_matrix(x, y), 41_coordinate_mapper.md R115. -/
  | mapToMatrix (x y : Reading)
  /-- build_matrix_buffer(row, col, color), 42_matrix_addressing.md R133; `row` is signed. -/
  | buildMatrixBuffer (row col : BitVec 4) (colour : Word)
  /-- serp(r, c), 42_matrix_addressing.md R131. -/
  | serp (r c : BitVec 4)
  /-- play(melody k), 45_melody_sequencer.md R180. -/
  | play (k : MelodyNo)
deriving DecidableEq, Repr

/-- An operation code in one of the three operation formats (30_encoding.md R80): the codes of different formats live in different
places (a stimulus word, the register `ph`, the register `ms`), so equal numbers of different formats are different codes. -/
inductive Code where
  /-- STIM, a 32-bit stimulus word (R81 to R85). -/
  | stim (w : Word)
  /-- PHASE, the 4-bit code in `ph` (R86). -/
  | phase (c : BitVec 4)
  /-- MSTATE, the 3-bit code in `ms` (R87). -/
  | mstate (c : BitVec 3)
deriving DecidableEq, Repr

/-- A row with an encoding of its own, that is, every row but the five FUNC rows (30_encoding.md R98). -/
def Instr.hasOwnCode : Instr → Bool
  | .mapToDisplay _ _ => false
  | .mapToMatrix _ _ => false
  | .buildMatrixBuffer _ _ _ => false
  | .serp _ _ => false
  | .play _ => false
  | _ => true

/-- The phase that computes a contract function (30_encoding.md R98); every other operation is its own carrier. -/
def Instr.carrier : Instr → Instr
  | .mapToDisplay _ _ => .phMapd
  | .mapToMatrix _ _ => .phMapm
  | .buildMatrixBuffer _ _ _ => .phMbuf
  | .serp _ _ => .phMbuf
  | .play _ => .phPlay
  | i => i

end Sys2Proof
end

