-- ==== Sys2Proof/WellFormed.lean ====
section
/-! DEFINITION. Well-formed operations. Operand widths are in the types of the constructors; the one check left is the domain
of the serpentine index (42_matrix_addressing.md R131: "for `0 <= r <= 4`, `0 <= c <= 4`"). A JOY reading at or above PERIOD is "a
well-formed word that breaks the input contract" (30_encoding.md R94 b): it is the meaning that refuses it. -/

namespace Sys2Proof

/-- The row of a serpentine index lies in the grid (R131). -/
def serpRowOk (r : BitVec 4) : Bool := decide (r.toNat ≤ 4)

/-- The column of a serpentine index lies in the grid (R131). -/
def serpColOk (c : BitVec 4) : Bool := decide (c.toNat ≤ 4)

/-- An operation whose result the spec states, as far as its operands alone can say. -/
def Instr.wellFormed : Instr → Bool
  | .serp r c => serpRowOk r && serpColOk c
  | _ => true

end Sys2Proof
end

