-- ==== Sys2Proof/Decode.lean ====
section
/-! DEFINITION. The decoder of the three operation formats (30_encoding.md R81 to R87, R94), total and rejecting by name; the encoder
written from the same tables; the decoder on the numbering of spec/opcode_table.json; and the trace syntax (R96, R97). -/

namespace Sys2Proof

/-- Why a code is no operation (30_encoding.md R94). -/
inductive DecodeReject where
  /-- `opc` in 4 to 15 (R94 a). -/
  | reservedOpcode
  /-- RST with a non-zero `arg` (R82, R94 a). -/
  | reservedRstArg
  /-- BTN with a non-zero `arg[27:1]` (R84, R94 a). -/
  | reservedBtnArg
  /-- `ph` = 14 or 15 (R86, R94 c). -/
  | reservedPhase
  /-- `ms` = 6 or 7 (R87, R94 c). -/
  | reservedMState
deriving DecidableEq, Repr

/-- Field `opc`, bits 31:28 (R81). -/
def stimOpc (w : Word) : BitVec 4 := w.extractLsb' 28 4

/-- Field `arg`, bits 27:0 (R81). -/
def stimArg (w : Word) : BitVec 28 := w.extractLsb' 0 28

/-- Field `x` of JOY, bits 27:14 (R85). -/
def joyX (w : Word) : Reading := w.extractLsb' 14 14

/-- Field `y` of JOY, bits 13:0 (R85). -/
def joyY (w : Word) : Reading := w.extractLsb' 0 14

/-- The stimulus decoder (R81 to R85; reserved words R94 a). -/
def decodeStim (w : Word) : Except DecodeReject Instr :=
  if stimOpc w = 0#4 then
    if stimArg w = 0#28 then .ok .rst else .error .reservedRstArg
  else if stimOpc w = 1#4 then .ok (.adv (stimArg w))
  else if stimOpc w = 2#4 then
    if stimArg w = 0#28 then .ok .btnA
    else if stimArg w = 1#28 then .ok .btnB
    else .error .reservedBtnArg
  else if stimOpc w = 3#4 then .ok (.joy (joyX w) (joyY w))
  else .error .reservedOpcode

/-- The PHASE codes of R86. -/
def decodePhase (c : BitVec 4) : Except DecodeReject Instr :=
  match c.toNat with
  | 0 => .ok .phInit
  | 1 => .ok .phRgb
  | 2 => .ok .phSample
  | 3 => .ok .phMapd
  | 4 => .ok .phMapm
  | 5 => .ok .phDz
  | 6 => .ok .phMbuf
  | 7 => .ok .phMsend
  | 8 => .ok .phDraw
  | 9 => .ok .phSvc1
  | 10 => .ok .phSvc2
  | 11 => .ok .phSvc3
  | 12 => .ok .phPlay
  | 13 => .ok .phSleep
  | _ => .error .reservedPhase

/-- The MSTATE codes of R87. -/
def decodeMState (c : BitVec 3) : Except DecodeReject Instr :=
  match c.toNat with
  | 0 => .ok .mIdle
  | 1 => .ok .mFetch
  | 2 => .ok .mHigh
  | 3 => .ok .mLow
  | 4 => .ok .mRest
  | 5 => .ok .mGap
  | _ => .error .reservedMState

/-- The decoder, format by format (R80, R95). -/
def decode : Code → Except DecodeReject Instr
  | .stim w => decodeStim w
  | .phase c => decodePhase c
  | .mstate c => decodeMState c

/-- The encoder: the code of an operation, from the tables of R82 to R87; a FUNC row has the code of the phase that computes it (R98). -/
def encode : Instr → Code
  | .rst => .stim 0x00000000#32
  | .adv n => .stim (1#4 ++ n)
  | .btnA => .stim 0x20000000#32
  | .btnB => .stim 0x20000001#32
  | .joy x y => .stim (3#4 ++ x ++ y)
  | .phInit => .phase 0#4
  | .phRgb => .phase 1#4
  | .phSample => .phase 2#4
  | .phMapd => .phase 3#4
  | .phMapm => .phase 4#4
  | .phDz => .phase 5#4
  | .phMbuf => .phase 6#4
  | .phMsend => .phase 7#4
  | .phDraw => .phase 8#4
  | .phSvc1 => .phase 9#4
  | .phSvc2 => .phase 10#4
  | .phSvc3 => .phase 11#4
  | .phPlay => .phase 12#4
  | .phSleep => .phase 13#4
  | .mIdle => .mstate 0#3
  | .mFetch => .mstate 1#3
  | .mHigh => .mstate 2#3
  | .mLow => .mstate 3#3
  | .mRest => .mstate 4#3
  | .mGap => .mstate 5#3
  | .mapToDisplay _ _ => .phase 3#4
  | .mapToMatrix _ _ => .phase 4#4
  | .buildMatrixBuffer _ _ _ => .phase 6#4
  | .serp _ _ => .phase 6#4
  | .play _ => .phase 12#4

/-- An accepted operation or nothing. -/
def acceptedInstr : Except DecodeReject Instr → Option Instr
  | .ok i => some i
  | .error _ => none

/-- The code a table row's number stands for: 32 bits is STIM, 4 bits (or the whole byte a 4-bit row fills) is PHASE, 3 bits is
MSTATE. In a whole byte the PHASE and the MSTATE rows have the same numbers; the byte is read as PHASE (log entry 15). -/
def tableCode (nbits w : Nat) : Option Code :=
  if nbits = 32 then
    if w < 4294967296 then some (.stim (BitVec.ofNat 32 w)) else none
  else if nbits = 3 then
    if w < 8 then some (.mstate (BitVec.ofNat 3 w)) else none
  else if nbits = 4 ∨ nbits = 8 then
    if w < 16 then some (.phase (BitVec.ofNat 4 w)) else none
  else none

/-- The operation the decoder reads from a table row's number. -/
def decodeTableWord (nbits w : Nat) : Option Instr :=
  match tableCode nbits w with
  | some c => acceptedInstr (decode c)
  | none => none

/-! ### Trace syntax (30_encoding.md R96) and pseudo-operations (R97) -/

/-- ADVMS m, admitted for `m <= 268435` (R97). -/
def pseudoAdvms (m : Nat) : Option Instr :=
  if m ≤ 268435 then some (.adv (BitVec.ofNat 28 (1000 * m))) else none

/-- CENTER (R97). -/
def pseudoCenter (c : Config) : Instr :=
  .joy (BitVec.ofNat 14 (c.period / 2)) (BitVec.ofNat 14 (c.period / 2))

/-- PRESS A and PRESS B, other spellings of BTN A and BTN B (R97). -/
def pseudoPress : Button → Instr
  | .a => .btnA
  | .b => .btnB

/-- TICKS k, admitted for `k <= 5368` (R97). -/
def pseudoTicks (k : Nat) : Option Instr :=
  if k ≤ 5368 then some (.adv (BitVec.ofNat 28 (50000 * k))) else none

/-- The value of a decimal digit. -/
def decDigit (ch : Char) : Option Nat :=
  if 48 ≤ ch.toNat ∧ ch.toNat ≤ 57 then some (ch.toNat - 48) else none

/-- The value of a hexadecimal digit of either case. -/
def hexDigit (ch : Char) : Option Nat :=
  if 48 ≤ ch.toNat ∧ ch.toNat ≤ 57 then some (ch.toNat - 48)
  else if 65 ≤ ch.toNat ∧ ch.toNat ≤ 70 then some (ch.toNat - 55)
  else if 97 ≤ ch.toNat ∧ ch.toNat ≤ 102 then some (ch.toNat - 87)
  else none

/-- A run of digits in a base, most significant first, on top of what was read before. -/
def readDigits (base : Nat) (digit : Char → Option Nat) : Nat → List Char → Option Nat
  | acc, [] => some acc
  | acc, ch :: rest =>
    match digit ch with
    | some d => readDigits base digit (acc * base + d) rest
    | none => none

/-- An operand: decimal, or hexadecimal with `0x` (R96). -/
def readNumber : List Char → Option Nat
  | [] => none
  | '0' :: 'x' :: rest => if rest.isEmpty then none else readDigits 16 hexDigit 0 rest
  | cs => readDigits 10 decDigit 0 cs

/-- The part of a line before its comment (R96: `;` starts a comment that runs to the end of the line). -/
def dropComment (cs : List Char) : List Char := cs.takeWhile (fun ch => ch != ';')

/-- A blank of the trace syntax. -/
def isBlank (ch : Char) : Bool := ch == ' ' || ch == '\t' || ch == '\r'

/-- Words separated by blanks; a comma is a word of its own. `cur` is the word being read, last character first. -/
def splitWords : List Char → List Char → List (List Char)
  | cur, [] => if cur.isEmpty then [] else [cur.reverse]
  | cur, ch :: rest =>
    if isBlank ch then
      if cur.isEmpty then splitWords [] rest else cur.reverse :: splitWords [] rest
    else if ch == ',' then
      if cur.isEmpty then [','] :: splitWords [] rest else cur.reverse :: [','] :: splitWords [] rest
    else splitWords (ch :: cur) rest

/-- ADV with its operand range (R83). -/
def readAdv (n : Nat) : Option Instr :=
  if n < 268435456 then some (.adv (BitVec.ofNat 28 n)) else none

/-- JOY with its operand widths (R85). -/
def readJoy (x y : Nat) : Option Instr :=
  if x < 16384 ∧ y < 16384 then some (.joy (BitVec.ofNat 14 x) (BitVec.ofNat 14 y)) else none

/-- One line's words as an operation (R96, R97); a blank line is no operation and no error. -/
def assembleWords (c : Config) : List (List Char) → Option (List Instr)
  | [] => some []
  | [['R', 'S', 'T']] => some [.rst]
  | [['A', 'D', 'V'], n] => do let k ← readNumber n; let i ← readAdv k; return [i]
  | [['B', 'T', 'N'], ['A']] => some [.btnA]
  | [['B', 'T', 'N'], ['B']] => some [.btnB]
  | [['J', 'O', 'Y'], x, [','], y] => do
    let a ← readNumber x; let b ← readNumber y; let i ← readJoy a b; return [i]
  | [['A', 'D', 'V', 'M', 'S'], m] => do let k ← readNumber m; let i ← pseudoAdvms k; return [i]
  | [['C', 'E', 'N', 'T', 'E', 'R']] => some [pseudoCenter c]
  | [['P', 'R', 'E', 'S', 'S'], ['A']] => some [pseudoPress .a]
  | [['P', 'R', 'E', 'S', 'S'], ['B']] => some [pseudoPress .b]
  | [['T', 'I', 'C', 'K', 'S'], k] => do let n ← readNumber k; let i ← pseudoTicks n; return [i]
  | _ => none

/-- One line of a trace (R96). -/
def assembleLine (c : Config) (line : List Char) : Option (List Instr) :=
  assembleWords c (splitWords [] (dropComment line))

/-- The lines of a text; `cur` is the line being read, last character first. -/
def splitLines : List Char → List Char → List (List Char)
  | cur, [] => [cur.reverse]
  | cur, ch :: rest =>
    if ch == '\n' then cur.reverse :: splitLines [] rest else splitLines (ch :: cur) rest

/-- The operations of a list of lines, in order. -/
def assembleLines (c : Config) : List (List Char) → Option (List Instr)
  | [] => some []
  | line :: rest => do
    let a ← assembleLine c line
    let b ← assembleLines c rest
    return a ++ b

/-- A trace text as its operations (R96, R97; log entry 27). -/
def assemble (c : Config) (text : String) : Option (List Instr) :=
  assembleLines c (splitLines [] text.toList)

end Sys2Proof
end

