-- ==== Sys2Proof/Machine/State.lean ====
section
/-! DEFINITION. The state of the CLCB (10_state.md R20), the reasons a step can stop, and the state after reset
(10_state.md R43, 70_reset_and_hazards.md R272). -/

namespace Sys2Proof.Machine

/-- A matrix-buffer memory: (index, word) cells in canonical form (`Memory.wf`, Machine/Ops.lean). The cell is the 32-bit word, since
"neither memory is byte addressable" (20_memory.md R66; log entry 17). An unlisted index reads as 0, the reset contents (R64). -/
abbrev Memory := List (Nat × Word)

/-- Kind and payload of an observable event (10_state.md R27). -/
inductive EventKind where
  | led (red green blue : Bool)
  | buzz (level : Bool)
  | mx (words : List Word)
  | draw (x y : BitVec 8)
  | melStart (k : MelodyNo)
  | melEnd (k : MelodyNo)
  | acc (btn : Button)
  | rej (btn : Button)
deriving DecidableEq, Repr

/-- One event of the output history: "a triple (time, kind, payload)" (10_state.md R27). -/
structure Event where
  time : Nat
  kind : EventKind
deriving DecidableEq, Repr

/-- A pending stimulus of the environment. `lead` = none: applied when MAIN is quiescent (46_main_sequencer.md R206 b);
`lead` = some k: applied after `k` more MAIN steps (or when MAIN is quiescent, if sooner), as the step relation allows
(R207; log entry 1). -/
structure Stimulus where
  word : Word
  lead : Option Nat
deriving DecidableEq, Repr

/-- What a contract function of the source returned (30_encoding.md R98; log entry 13). -/
inductive FnResult where
  | cursor (x y : BitVec 8)
  | cell (row col : BitVec 4)
  | buffer (words : List Word)
  | index (i : Nat)
deriving DecidableEq, Repr

/-- The whole state of the CLCB (10_state.md R20) with its configuration, and the model's own `adv`, `trace`, `fnResult`, `freeCount`. -/
structure State where
  /-- The configuration record of 00_scope.md R8; no step writes it (log entry 2). -/
  cfg : Config
  /-- Held in reset, before the first RST (70_reset_and_hazards.md R271). -/
  held : Bool
  /-- The microsecond counter (R21). -/
  T : Nat
  /-- The analog-reading inputs (R22). -/
  inX : Reading
  inY : Reading
  /-- `cal_x`, `cal_y`: the calibration centre (R28). -/
  calX : Reading
  calY : Reading
  /-- `rd_x`, `rd_y`: the sampled reading (R28). -/
  rdX : Reading
  rdY : Reading
  /-- `cur_x`, `cur_y`: the cursor position (R28). -/
  curX : BitVec 8
  curY : BitVec 8
  /-- `cell_row`, signed, and `cell_col` (R28). -/
  cellRow : BitVec 4
  cellCol : BitVec 4
  /-- `mov_x`, `mov_y`: movement detected (R31). -/
  movX : Bool
  movY : Bool
  /-- `deb_last` (R33). -/
  debLast : Nat
  /-- `rgb_en` (R34). -/
  rgbEn : Bool
  /-- `sel`, SelectionIndex (R34). -/
  sel : BitVec 2
  /-- `col_sel` (R34). -/
  colSel : BitVec 2
  /-- `melreq[1]` to `melreq[3]` (R34). -/
  melreq1 : Bool
  melreq2 : Bool
  melreq3 : Bool
  /-- `rgb_state` and `rgb_last` (R35). -/
  rgbState : BitVec 2
  rgbLast : Nat
  /-- `led_r`, `led_g`, `led_b` (R24). -/
  ledR : Bool
  ledG : Bool
  ledB : Bool
  /-- `ph`, MAIN's phase, its program counter (R36). -/
  ph : BitVec 4
  /-- `dl`, the deadline register (R37). -/
  dl : Nat
  /-- `mel`, `ni`, `ms`, `cyc`, `half`, `buzz`: the note sequencer (R38). -/
  mel : BitVec 2
  ni : BitVec 8
  ms : BitVec 3
  cyc : BitVec 32
  half : BitVec 19
  buzz : Bool
  /-- `mbuf` (20_memory.md R64). -/
  mbuf : Memory
  /-- The output history, oldest event first (R27). -/
  out : List Event
  /-- The model's own: microseconds an accepted ADV has still to pass (46_main_sequencer.md R208; log entry 7). -/
  adv : Nat
  /-- The model's own: the environment's pending stimuli, next one first (log entry 1). -/
  trace : List Stimulus
  /-- The model's own: the last contract function's value (log entry 13). -/
  fnResult : Option FnResult
  /-- The model's own: how many free values have been drawn (log entry 28). -/
  freeCount : Nat
deriving DecidableEq, Repr

/-- Why the machine stops with a fault: never. "no step of either agent can fault, trap or abort" (60_exceptions.md R240), and `raise` is never used
(00_scope.md R14), so there is no reason. -/
inductive Fault where
deriving DecidableEq, Repr

/-- Why an operation or a step has no meaning: the spec's `refuse` (00_scope.md R14). All safe: they claim nothing. -/
inductive Refusal where
  /-- Raised by a dispatch arm of an operation without a meaning (none in this model). Safe. -/
  | notModelled (mnemonic : String)
  /-- Raised by step's stimulus decoder: a reserved word (30_encoding.md R94 a, U7). Safe. -/
  | reservedStimulus
  /-- Raised by ADV, BTN, every MAIN operation and play while held in reset (70_reset_and_hazards.md R271, U15). Safe. -/
  | heldInReset
  /-- Raised by JOY on a reading at or above PERIOD (46_main_sequencer.md R210, U5). Safe. -/
  | readingOutOfRange
  /-- Raised by BTN_B, accepted, with `sel` = 3 (R94 c, U6). Safe. -/
  | reservedSel
  /-- Raised by PH_MBUF with `col_sel` = 3 (R94 c, U6). Safe. -/
  | reservedColSel
  /-- Raised by PH_RGB, enabled and due, with `rgb_state` = 3 (R94 c, U6). Safe. -/
  | reservedRgbState
  /-- Raised by M_FETCH with `mel` = 0 (R94 d, U6). Safe. -/
  | reservedMel
  /-- Raised by PH_PLAY where `ms` selects no step, and by M_IDLE in PH_PLAY: stuck (R94 c and d, 45_melody_sequencer.md R181). Safe. -/
  | noMainStep
  /-- Raised by M_FETCH with `ni` above LEN: `MemRead(NOTE, k, i)` is for entries below LEN (20_memory.md R61), and no rule reads
"an entry that does not exist" (R63; log entry 29). Only in a state no run reaches. Safe. -/
  | noteEntryMissing
deriving DecidableEq, Repr

/-- The state right after RST (10_state.md R43, 70_reset_and_hazards.md R272) for the given configuration and input levels: MAIN
is at PH_INIT and has not stepped yet. -/
def State.afterRst (cfg : Config) (inX inY : Reading) (trace : List Stimulus) : State :=
  { cfg := cfg, held := false, T := 0, inX := inX, inY := inY,
    calX := 0#14, calY := 0#14, rdX := 0#14, rdY := 0#14,
    curX := 0#8, curY := 0#8, cellRow := 0#4, cellCol := 0#4, movX := false, movY := false,
    debLast := 0, rgbEn := cfg.rgbEnReset, sel := 0#2, colSel := 0#2,
    melreq1 := false, melreq2 := false, melreq3 := false,
    rgbState := 0#2, rgbLast := 0, ledR := false, ledG := false, ledB := false,
    ph := 0#4, dl := 0, mel := 0#2, ni := 0#8, ms := 0#3, cyc := 0#32, half := 0#19, buzz := false,
    mbuf := [], out := [], adv := 0, trace := trace, fnResult := none, freeCount := 0 }

/-- The machine right after reset, at the input levels of log entry 5. -/
def State.reset : State := State.afterRst Config.default 0#14 0#14 []

/-- The machine before its first RST: held in reset, its level outputs low (70_reset_and_hazards.md R271). -/
def State.powerOn : State := { State.reset with held := true }

end Sys2Proof.Machine
end

