-- ==== Sys2Proof/Machine/Operands.lean ====
section
/-! DEFINITION. The pure functions of the rules: arithmetic primitives (00_scope.md R11), coordinate mapper (41_coordinate_mapper.md),
serpentine index (42_matrix_addressing.md), note word and tone arithmetic (45_melody_sequencer.md), parameter lookups. -/

namespace Sys2Proof.Machine

/-! ### Primitives (00_scope.md R11) -/

/-- `floor(a / b)`, non-negative dividend and positive divisor. -/
def floorDiv (a b : Nat) : Nat := a / b

/-- `clamp(v, lo, hi)` of a signed integer. -/
def clamp (v lo hi : Int) : Int := if v < lo then lo else if hi < v then hi else v

/-- `abs(a - b)` of two unsigned values. -/
def absDiff (a b : Nat) : Nat := if a ≤ b then b - a else a - b

/-! ### Coordinate mapper -/

/-- One cursor coordinate: scaled to `ext` pixels, less OFFSET, clamped between MARGIN and `ext - GLYPH - MARGIN` (R111). -/
def cursorCoord (c : Config) (ext v : Nat) : Int :=
  clamp ((floorDiv (v * ext) c.period : Int) - (c.offset.val : Int)) (c.margin.val : Int)
    ((ext : Int) - (c.glyph.val : Int) - (c.margin.val : Int))

/-- `map_to_display(x, y)` (R111). -/
def mapToDisplay (c : Config) (x y : Reading) : BitVec 8 × BitVec 8 :=
  (BitVec.ofInt 8 (cursorCoord c c.dispW.val x.toNat), BitVec.ofInt 8 (cursorCoord c c.dispH.val y.toNat))

/-- The matrix row, flipped: DOUBLE inverts the reading first (R115), SINGLE does not (R117). -/
def matrixRow (c : Config) (y : Nat) : Int :=
  match c.rowVariant with
  | .double => (c.nRow.val : Int) - 1 - (floorDiv ((c.period - y) * c.nRow.val) c.period : Int)
  | .single => (c.nRow.val : Int) - 1 - (floorDiv (y * c.nRow.val) c.period : Int)

/-- The matrix column (R115). -/
def matrixCol (c : Config) (x : Nat) : Nat := floorDiv (x * c.nCol.val) c.period

/-- `map_to_matrix(x, y)` (R115, R117). -/
def mapToMatrix (c : Config) (x y : Reading) : BitVec 4 × BitVec 4 :=
  (BitVec.ofInt 4 (matrixRow c y.toNat), BitVec.ofNat 4 (matrixCol c x.toNat))

/-- A reading that keeps the contract "in [0, PERIOD)" (10_state.md R22). -/
def readingOk (c : Config) (v : Reading) : Bool := decide (v.toNat < c.period)

/-! ### Serpentine index -/

/-- `serp(r, c)` (R131). -/
def serpIndex (r c : Nat) : Nat := if r % 2 = 0 then 5 * r + (4 - c) else 5 * r + c

/-- `unserp(i)`, the cell at strip position `i` (R132). -/
def unserp (i : Nat) : Nat × Nat :=
  (i / 5, if i / 5 % 2 = 0 then 4 - i % 5 else i % 5)

/-! ### Parameters selected by a code -/

/-- COLOR_(v+1) for `v` = 0, 1, 2; 3 is reserved (30_encoding.md R89). -/
def selectedColour (c : Config) (v : BitVec 2) : Option Word :=
  match v.toNat with
  | 0 => some c.colour1
  | 1 => some c.colour2
  | 2 => some c.colour3
  | _ => none

/-- The code of a melody in `mel` (30_encoding.md R89). -/
def melodyCode : MelodyNo → BitVec 2
  | .one => 1#2
  | .two => 2#2
  | .three => 3#2

/-- The melody `mel` names; 0 is no melody. -/
def melodyOfCode (v : BitVec 2) : Option MelodyNo :=
  match v.toNat with
  | 1 => some .one
  | 2 => some .two
  | 3 => some .three
  | _ => none

/-- The melody a selection value requests: melody `v+1`; 3 is reserved (R89). -/
def selectedMelody (v : BitVec 2) : Option MelodyNo :=
  match v.toNat with
  | 0 => some .one
  | 1 => some .two
  | 2 => some .three
  | _ => none

/-- MEL_k (00_scope.md R8). -/
def melodyWords (c : Config) : MelodyNo → List Word
  | .one => c.mel1
  | .two => c.mel2
  | .three => c.mel3

/-- LEN_k (00_scope.md R8). -/
def melodyLen (c : Config) (k : MelodyNo) : Nat := (melodyWords c k).length

/-- `MemRead(NOTE, k, i)` (20_memory.md R61); none at or above LEN, "an entry that does not exist" (R63). -/
def noteRead (c : Config) (k : MelodyNo) (i : Nat) : Option Word := (melodyWords c k)[i]?

/-- BASE_k of the physical layout (20_memory.md R62). -/
def noteBase (c : Config) : MelodyNo → Nat
  | .one => 0
  | .two => melodyLen c .one
  | .three => melodyLen c .one + melodyLen c .two

/-- The physical note ROM: one array of words by address (20_memory.md R62). -/
def noteRom (c : Config) : List Word := c.mel1 ++ c.mel2 ++ c.mel3

/-! ### Note word and tone arithmetic -/

/-- `freq`, bits 31:16 (30_encoding.md R90). -/
def noteFreq (w : Word) : BitVec 16 := w.extractLsb' 16 16

/-- `dur`, bits 15:0 (30_encoding.md R90). -/
def noteDur (w : Word) : BitVec 16 := w.extractLsb' 0 16

/-- `cyc = floor(f * d / 1000)`, the number of full cycles (R186). -/
def toneCycles (f d : Nat) : Nat := floorDiv (f * d) 1000

/-- `half = floor(500000 / f)`, microseconds (R186). -/
def toneHalf (f : Nat) : Nat := floorDiv 500000 f

/-- The time one entry takes (45_melody_sequencer.md R191). -/
def entryTime (c : Config) (w : Word) : Nat :=
  if noteFreq w = c.restMark.val then 1000 * (noteDur w).toNat + c.tGap.val
  else 2 * toneHalf (noteFreq w).toNat * toneCycles (noteFreq w).toNat (noteDur w).toNat + c.tGap.val

/-- The time melody `k` takes: "the sum over its entries" (R191). -/
def melodyTime (c : Config) (k : MelodyNo) : Nat := ((melodyWords c k).map (entryTime c)).sum

end Sys2Proof.Machine
end

