-- ==== Sys2Proof/Machine/Flags.lean ====
section
/-! DEFINITION. The stored flags' computation and the derived conditions (10_state.md R31), the enabling conditions of MAIN
(46_main_sequencer.md R205) and the step MAIN's codes select. -/

namespace Sys2Proof.Machine

/-- `mov_x`, `mov_y`: the reading differs from the centre by more than DZ_THR (41_coordinate_mapper.md R120). -/
def movementFlag (c : Config) (rd cal : Reading) : Bool := decide (c.dzThr.val < absDiff rd.toNat cal.toNat)

/-- `cell_valid`: `0 <= cell_row < 5 and 0 <= cell_col < 5`, the row signed (10_state.md R31; 42_matrix_addressing.md R133). -/
def cellValid (c : Config) (row col : BitVec 4) : Bool :=
  decide (0 ≤ row.toInt) && decide (row.toInt < c.nRow.val) && decide (col.toNat < c.nCol.val)

/-- `deb_ready`: `T - deb_last >= 200000` over the integers (10_state.md R21, R31). -/
def debReady (s : State) : Bool := decide (s.debLast + s.cfg.tDeb.val ≤ s.T)

/-- `rgb_due`: `T - rgb_last >= 300000` over the integers (10_state.md R21, R31). -/
def rgbDue (s : State) : Bool := decide (s.rgbLast + s.cfg.tRgb.val ≤ s.T)

/-- The code pair (`ph`, `ms`) is one of R205's always-enabled rows. -/
def alwaysEnabled (s : State) : Bool :=
  (decide (s.ph.toNat ≤ 11) && decide (s.ms = 0#3)) || (decide (s.ph = 12#4) && decide (s.ms = 1#3))

/-- The code pair (`ph`, `ms`) is one of R205's waiting rows, enabled when `T >= dl`. -/
def waitingPair (s : State) : Bool :=
  (decide (s.ph = 12#4) && decide (2 ≤ s.ms.toNat) && decide (s.ms.toNat ≤ 5))
    || (decide (s.ph = 13#4) && decide (s.ms = 0#3))

/-- `T >= dl`, the deadline compare (60_exceptions.md R253 c). -/
def deadlineMet (s : State) : Bool := decide (s.dl ≤ s.T)

/-- MAIN has an enabled step (46_main_sequencer.md R205); none while held in reset (70_reset_and_hazards.md R271). -/
def mainEnabled (s : State) : Bool :=
  !s.held && (alwaysEnabled s || (waitingPair s && deadlineMet s))

/-- The gate's two states (44_debounce_mode.md R162). -/
inductive GateState where
  | ready
  | lockout
deriving DecidableEq, Repr

/-- The gate as a state machine: a function of `T` and `deb_last` (44_debounce_mode.md R162). -/
def gateState (s : State) : GateState := if debReady s then .ready else .lockout

end Sys2Proof.Machine
end

