-- ==== Sys2Proof/Machine/Ops.lean ====
section
/-! DEFINITION. The shared operations: the matrix-buffer memory, output events, the EDGE step (the CLCB's one interrupt, whole: the
gate and the two actions), the melody start and end, the note sequencer's steps, the passage of time and the choice of
what steps next. -/

namespace Sys2Proof.Machine

/-- The outcome of a meaning. -/
abbrev Result := Host.Outcome State Fault Refusal

/-! ### The matrix buffer (20_memory.md R64) -/

/-- `MemRead(MBUF, i)`; an unlisted word reads as 0. -/
def memRead : Memory → Nat → Word
  | [], _ => 0#32
  | (a, v) :: m, i => if a = i then v else memRead m i

/-- `MemWrite(MBUF, i, v)`, keeping the canonical form: writing 0 removes the cell. -/
def memWrite : Memory → Nat → Word → Memory
  | [], i, v => if v = 0#32 then [] else [(i, v)]
  | (a, w) :: m, i, v =>
    if i < a then (if v = 0#32 then (a, w) :: m else (i, v) :: (a, w) :: m)
    else if i = a then (if v = 0#32 then m else (i, v) :: m)
    else (a, w) :: memWrite m i v

/-- How many words the matrix buffer has: "25 words" (R64), one for each cell (R8, N_CELL). -/
def mbufWords : Nat := 25

/-- The cells from a lower bound on: indices strictly rising, inside the buffer, no zero word. -/
def memWfFrom : Nat → Memory → Bool
  | _, [] => true
  | lo, (a, v) :: m => decide (lo ≤ a) && decide (a < mbufWords) && decide (v ≠ 0#32) && memWfFrom (a + 1) m

/-- The canonical form of the matrix buffer. -/
def Memory.wf (m : Memory) : Bool := memWfFrom 0 m

/-- `MemWrite(MBUF, i, 0)` for `i` from 0 to `n - 1`: the clearing loop of 42_matrix_addressing.md R133. -/
def memClear : Nat → Memory → Memory
  | 0, m => m
  | n + 1, m => memWrite (memClear n m) n 0#32

/-- The words of the buffer in index order, index 0 first (10_state.md R25). -/
def memWords (c : Config) (m : Memory) : List Word := (List.range c.nCell.val).map (memRead m)

/-- `build_matrix_buffer(row, col, color)` (R133): the buffer "rebuilt from nothing", all zero but for the active cell's word. -/
def buildMatrixBuffer (c : Config) (row col : BitVec 4) (colour : Word) : Memory :=
  if cellValid c row col then memWrite [] (serpIndex row.toNat col.toNat) colour else []

/-! ### The mappings of any reading, and the index of any cell (log entry 18)

A reading at or above PERIOD has no cursor coordinate in R111 and no row or column in R115, a cell outside the grid no index in R131: that one
value is free. Each coordinate depends on its own axis alone (R114, R119). -/

/-- The count of free values after a step that draws one where its operands have no stated result. -/
def countFree (s : State) (stated : Bool) : Nat := if stated then s.freeCount else s.freeCount + 1

/-- Both readings are in [0, PERIOD). -/
def readingsOk (s : State) (x y : Reading) : Bool := readingOk s.cfg x && readingOk s.cfg y

/-- The cursor position of two readings. -/
def cursorOf (s : State) (x y : Reading) : BitVec 8 × BitVec 8 :=
  (if readingOk s.cfg x then (mapToDisplay s.cfg x y).1 else Config.freeCurX s.freeCount,
   if readingOk s.cfg y then (mapToDisplay s.cfg x y).2 else Config.freeCurY s.freeCount)

/-- The matrix cell, (row, column), of two readings: the row from `y`, the column from `x`. -/
def cellOf (s : State) (x y : Reading) : BitVec 4 × BitVec 4 :=
  (if readingOk s.cfg y then (mapToMatrix s.cfg x y).1 else Config.freeCellRow s.freeCount,
   if readingOk s.cfg x then (mapToMatrix s.cfg x y).2 else Config.freeCellCol s.freeCount)

/-- The serpentine index of any pair of operands. -/
def indexOf (s : State) (r c : BitVec 4) : Nat :=
  if serpRowOk r && serpColOk c then serpIndex r.toNat c.toNat else Config.freeIndex s.freeCount

/-! ### Outputs (10_state.md R24, R27) -/

/-- `emit KIND(payload)`: an event stamped with `T` (00_scope.md R14). -/
def emit (s : State) (k : EventKind) : State := { s with out := s.out ++ [⟨s.T, k⟩] }

/-- The LED event of a write: emitted only where the value changes (R27). -/
def ledEvents (s : State) (red green blue : Bool) : List Event :=
  if s.ledR = red ∧ s.ledG = green ∧ s.ledB = blue then [] else [⟨s.T, .led red green blue⟩]

/-- A write of the three LED registers. -/
def setLeds (s : State) (red green blue : Bool) : State :=
  { s with ledR := red, ledG := green, ledB := blue, out := s.out ++ ledEvents s red green blue }

/-- The BUZZ event of a write: emitted only where `buzz` changes (R27). -/
def buzzEvents (s : State) (level : Bool) : List Event :=
  if s.buzz = level then [] else [⟨s.T, .buzz level⟩]

/-- A write of `buzz`. -/
def setBuzz (s : State) (level : Bool) : State :=
  { s with buzz := level, out := s.out ++ buzzEvents s level }

/-! ### Held in reset, waits -/

/-- Nothing but RST and JOY has a meaning while held in reset (70_reset_and_hazards.md R271). -/
def whenLive (s : State) (o : Result) : Result := if s.held then .refused .heldInReset else o

/-- A waiting step: before its deadline MAIN stays where it is (46_main_sequencer.md R205, R222; log entry 11). -/
def whenDue (s : State) (o : Result) : Result := if deadlineMet s then o else .next s

/-! ### Counting modulo 3 -/

/-- `(v + 1) mod 3` of a 2-bit code (44_debounce_mode.md R164; 43_rgb_cycle.md R147). -/
def nextOfThree (v : BitVec 2) : BitVec 2 := BitVec.ofNat 2 ((v.toNat + 1) % 3)

/-! ### Melody-request flags -/

/-- `melreq[k]`. -/
def melreq (s : State) : MelodyNo → Bool
  | .one => s.melreq1
  | .two => s.melreq2
  | .three => s.melreq3

/-- `melreq[k] <- v`. -/
def setMelreq (s : State) (k : MelodyNo) (v : Bool) : State :=
  match k with
  | .one => { s with melreq1 := v }
  | .two => { s with melreq2 := v }
  | .three => { s with melreq3 := v }

/-! ### The EDGE step: the debounce gate and the button actions (44_debounce_mode.md) -/

/-- The button A action (R163). -/
def buttonAction (s : State) : Button → Result
  | .a => .next (setLeds { s with rgbEn := !s.rgbEn } false false false)
  | .b =>
    match selectedMelody s.sel with
    | some k => .next (setMelreq { s with colSel := s.sel, sel := nextOfThree s.sel } k true)
    | none => .refused .reservedSel

/-- The state after the gate accepts an edge: `deb_last <- T; emit ACC(b)` (R161). -/
def acceptEdge (s : State) (btn : Button) : State :=
  { s with debLast := s.T, out := s.out ++ [⟨s.T, .acc btn⟩] }

/-- The whole EDGE step (R165), the CLCB's interrupt: no saved context, no mask, no return (60_exceptions.md R246, R248,
R249). The gate (R161) accepts and the button acts, or it rejects and "no other state changes". -/
def edgeStep (s : State) (btn : Button) : Result :=
  if debReady s then buttonAction (acceptEdge s btn) btn else .next (emit s (.rej btn))

/-! ### The colour cycle (43_rgb_cycle.md R147) -/

/-- A firing: the channel of `rgb_state` alone asserted, the state advanced, the time recorded. -/
def rgbFire (s : State) : Result :=
  match s.rgbState.toNat with
  | 0 => .next { setLeds s false false true with rgbState := nextOfThree s.rgbState, rgbLast := s.T }
  | 1 => .next { setLeds s true false false with rgbState := nextOfThree s.rgbState, rgbLast := s.T }
  | 2 => .next { setLeds s false true false with rgbState := nextOfThree s.rgbState, rgbLast := s.T }
  | _ => .refused .reservedRgbState

/-- `ph <- P` after a result. -/
def thenPhase (p : BitVec 4) : Result → Result
  | .next s => .next { s with ph := p }
  | .fault r => .fault r
  | .refused r => .refused r

/-- The colour-cycle decision of R147. -/
def rgbStep (s : State) : Result :=
  if s.rgbEn then (if rgbDue s then rgbFire s else .next s)
  else .next (setLeds s false false false)

/-! ### Service slots and melodies (45_melody_sequencer.md R182, R185; 46_main_sequencer.md R213, R216) -/

/-- `start_melody(k)` (R182). -/
def startMelody (s : State) (k : MelodyNo) : State :=
  { s with mel := melodyCode k, ni := 0#8, ms := 1#3, ph := 12#4, out := s.out ++ [⟨s.T, .melStart k⟩] }

/-- `after(k)` (R213). -/
def afterSlot (s : State) : MelodyNo → State
  | .one => { s with ph := 10#4 }
  | .two => { s with ph := 11#4 }
  | .three => { s with ph := 13#4, dl := s.T + s.cfg.tLoop.val }

/-- The service slot `k` (R216 to R218): a set flag starts the melody (and is cleared now with MELREQ_CLEAR = START), a clear
flag passes on. -/
def serviceSlot (s : State) (k : MelodyNo) : State :=
  if melreq s k then
    match s.cfg.melreqClear with
    | .start => startMelody (setMelreq s k false) k
    | .atEnd => startMelody s k
  else afterSlot s k

/-- `end_melody()` for melody `k` (R185). -/
def endMelody (s : State) (k : MelodyNo) : State :=
  match s.cfg.melreqClear with
  | .start => afterSlot { emit s (.melEnd k) with mel := 0#2, ni := 0#8, ms := 0#3 } k
  | .atEnd => afterSlot { setMelreq (emit s (.melEnd k)) k false with mel := 0#2, ni := 0#8, ms := 0#3 } k

/-! ### The note sequencer (45_melody_sequencer.md R183 to R192) -/

/-- An entry of the melody entered: a rest, a tone, or a tone with no cycle (R183, R187). -/
def enterNote (s : State) (w : Word) : State :=
  if noteFreq w = s.cfg.restMark.val then
    { setBuzz s false with dl := s.T + 1000 * (noteDur w).toNat, ms := 4#3 }
  else if toneCycles (noteFreq w).toNat (noteDur w).toNat = 0 then
    { s with cyc := 0#32, half := BitVec.ofNat 19 (toneHalf (noteFreq w).toNat), dl := s.T + s.cfg.tGap.val, ms := 5#3 }
  else
    { setBuzz s true with
      cyc := BitVec.ofNat 32 (toneCycles (noteFreq w).toNat (noteDur w).toNat),
      half := BitVec.ofNat 19 (toneHalf (noteFreq w).toNat),
      dl := s.T + toneHalf (noteFreq w).toNat, ms := 2#3 }

/-- M_FETCH (R183): the end of the melody, or its next entry; an entry that does not exist has no meaning (20_memory.md R63; log entry
29). -/
def fetchNote (s : State) : Result :=
  match melodyOfCode s.mel with
  | none => .refused .reservedMel
  | some k =>
    if s.ni.toNat = melodyLen s.cfg k then .next (endMelody s k)
    else
      match noteRead s.cfg k s.ni.toNat with
      | some w => .next (enterNote s w)
      | none => .refused .noteEntryMissing

/-- M_HIGH fires (R188). -/
def highEnd (s : State) : State :=
  { setBuzz s false with dl := s.T + s.half.toNat, ms := 3#3 }

/-- M_LOW fires (R189): `cyc - 1` is evaluated over the integers (00_scope.md R10), so at `cyc` = 0 it is not 0 and the next cycle begins;
what the register holds is then a free value (log entry 19). -/
def lowEnd (s : State) : State :=
  if s.cyc = 0#32 then
    { setBuzz s true with
      cyc := Config.freeCyc s.freeCount, freeCount := s.freeCount + 1, dl := s.T + s.half.toNat, ms := 2#3 }
  else if s.cyc = 1#32 then { s with cyc := 0#32, dl := s.T + s.cfg.tGap.val, ms := 5#3 }
  else { setBuzz s true with cyc := s.cyc - 1#32, dl := s.T + s.half.toNat, ms := 2#3 }

/-- M_REST fires (R190). -/
def restEnd (s : State) : State := { s with dl := s.T + s.cfg.tGap.val, ms := 5#3 }

/-- M_GAP fires (R192); `ni + 1` at `ni` = 255 fits no register of 8 bits and is a free value (log entry 19). -/
def gapEnd (s : State) : State :=
  if s.ni = 255#8 then { s with ni := Config.freeNi s.freeCount, freeCount := s.freeCount + 1, ms := 1#3 }
  else { s with ni := s.ni + 1#8, ms := 1#3 }

/-! ### The passage of time (46_main_sequencer.md R206, R208) -/

/-- How far time may pass at once: up to the deadline of a wait, without bound where MAIN waits for nothing. -/
def freeRun (s : State) : Nat := if waitingPair s then min s.adv (s.dl - s.T) else s.adv

/-- Time passes: not at all while MAIN has an enabled step (R206 a, maximal progress); otherwise to the next deadline or the end
of the advance, whichever is first: the equivalent form of R208. What is left of the advance stays in `adv`. -/
def passTime (s : State) : State :=
  if mainEnabled s then s else { s with T := s.T + freeRun s, adv := s.adv - freeRun s }

/-! ### What steps next (46_main_sequencer.md R205 to R207; log entry 1) -/

/-- The four things a step of the whole block can be. -/
inductive Choice where
  | stimulus
  | main
  | time
  | idle
deriving DecidableEq, Repr

/-- The next stimulus falls between two MAIN steps here (R207). -/
def preempts (s : State) : Bool :=
  decide (s.adv = 0) && decide ((s.trace.head?.bind Stimulus.lead) = some 0)

/-- A preempting stimulus first, else MAIN's enabled step, else the rest of an advance, else the next stimulus, else nothing: the
trace is over (46_main_sequencer.md R224; log entry 8). -/
def chooseStep (s : State) : Choice :=
  if preempts s then .stimulus
  else if mainEnabled s then .main
  else if s.adv ≠ 0 then .time
  else if s.trace.isEmpty then .idle
  else .stimulus

/-- One MAIN step counts against the lead of the next stimulus, once the advance before it is over (log entry 1). -/
def countLead (s : State) : State :=
  { s with trace :=
      match s.adv, s.trace with
      | 0, ⟨w, some (k + 1)⟩ :: rest => ⟨w, some k⟩ :: rest
      | _, tr => tr }

/-- The next stimulus leaves the trace. -/
def dropStimulus (s : State) : State := { s with trace := s.trace.tail }

/-! ### Placing an operation where the next step finds it (log entry 16) -/

/-- The next stimulus waits for quiescence. -/
def clearLead (s : State) : State :=
  { s with trace :=
      match s.trace with
      | ⟨w, some _⟩ :: rest => ⟨w, none⟩ :: rest
      | tr => tr }

/-- `s` with the stimulus word `w` next, ahead of everything. -/
def placeStimulus (s : State) (w : Word) : State := { s with adv := 0, trace := ⟨w, some 0⟩ :: s.trace }

/-- `s` with the phase code `c` in `ph` and that phase's step enabled now. For PH_PLAY, which needs a code in `ms` that selects a
step and a melody in `mel`, what `s` lacks is a rest of melody 1. -/
def placePhase (s : State) (c : BitVec 4) : State :=
  if c = 12#4 then
    { clearLead s with
      held := false, ph := c, dl := min s.dl s.T, mel := if s.mel = 0#2 then 1#2 else s.mel,
      ms := if 1 ≤ s.ms.toNat ∧ s.ms.toNat ≤ 5 then s.ms else 4#3 }
  else { clearLead s with held := false, ph := c, ms := 0#3, dl := if c = 13#4 then min s.dl s.T else s.dl }

/-- `s` in PH_PLAY with the code `c` in `ms` and that step enabled now. M_IDLE selects no step: only `ms` is set. -/
def placeMState (s : State) (c : BitVec 3) : State :=
  if c = 0#3 then { s with ms := c }
  else
    { clearLead s with
      held := false, ph := 12#4, ms := c, dl := min s.dl s.T, mel := if s.mel = 0#2 then 1#2 else s.mel }

end Sys2Proof.Machine
end

