-- ==== Sys2Proof/Machine/Func.lean ====
section
/-! DEFINITION. The five contract functions of the source (30_encoding.md R98) as operations: a function of its arguments alone returns
its value in `fnResult` and changes no register (log entry 13); `play` starts the run of R180 (log entry 14). -/

namespace Sys2Proof.Machine

/-- map_to_display(x, y) (41_coordinate_mapper.md R111). -/
def execMapToDisplay (x y : Reading) (s : State) : Result :=
  .next { s with fnResult := some (.cursor (cursorOf s x y).1 (cursorOf s x y).2), freeCount := countFree s (readingsOk s x y) }

/-- map_to_matrix(x, y) (41_coordinate_mapper.md R115, R117). -/
def execMapToMatrix (x y : Reading) (s : State) : Result :=
  .next { s with fnResult := some (.cell (cellOf s x y).1 (cellOf s x y).2), freeCount := countFree s (readingsOk s x y) }

/-- build_matrix_buffer(row, col, color) (42_matrix_addressing.md R130, R133): "ordered sequence of 25 color values". -/
def execBuildMatrixBuffer (row col : BitVec 4) (colour : Word) (s : State) : Result :=
  .next { s with fnResult := some (.buffer (memWords s.cfg (buildMatrixBuffer s.cfg row col colour))) }

/-- serp(r, c) (42_matrix_addressing.md R131). -/
def execSerp (r c : BitVec 4) (s : State) : Result :=
  .next { s with fnResult := some (.index (indexOf s r c)), freeCount := countFree s (serpRowOk r && serpColOk c) }

/-- play(melody k) (45_melody_sequencer.md R180): "the run of MAIN steps from the start action (rule R182) to the end action (rule
R185)". The operation takes the start action; the MSTATE steps that follow are the rest of the run. -/
def execPlay (k : MelodyNo) (s : State) : Result := whenLive s (.next (startMelody s k))

end Sys2Proof.Machine
end

