-- ==== Sys2Proof/Machine/Note.lean ====
section
/-! DEFINITION. The note sequencer's states as operations (30_encoding.md R87): the steps MAIN takes while `ph` = PH_PLAY. -/

namespace Sys2Proof.Machine

/-- M_IDLE: "no melody playing; no step" (R87): nothing changes. In PH_PLAY it is the stuck combination of 30_encoding.md R94 d
(log entry 12). -/
def execMIdle (s : State) : Result :=
  whenLive s (if s.ph = 12#4 then .refused .noMainStep else .next s)

/-- M_FETCH (45_melody_sequencer.md R183). -/
def execMFetch (s : State) : Result := whenLive s (fetchNote s)

/-- M_HIGH (R188). -/
def execMHigh (s : State) : Result := whenLive s (whenDue s (.next (highEnd s)))

/-- M_LOW (R189). -/
def execMLow (s : State) : Result := whenLive s (whenDue s (.next (lowEnd s)))

/-- M_REST (R190). -/
def execMRest (s : State) : Result := whenLive s (whenDue s (.next (restEnd s)))

/-- M_GAP (R192). -/
def execMGap (s : State) : Result := whenLive s (whenDue s (.next (gapEnd s)))

end Sys2Proof.Machine
end

