-- ==== Sys2Proof/Machine/Phase.lean ====
section
/-! DEFINITION. The phase steps of MAIN (30_encoding.md R86), each as its rule's pseudocode; `ph <- P` names the phase by its code. -/

namespace Sys2Proof.Machine

/-- PH_INIT (70_reset_and_hazards.md R273). -/
def execPhInit (s : State) : Result :=
  whenLive s (.next { s with calX := s.inX, calY := s.inY, ph := 1#4 })

/-- PH_RGB (43_rgb_cycle.md R147). -/
def execPhRgb (s : State) : Result := whenLive s (thenPhase 2#4 (rgbStep s))

/-- PH_SAMPLE (46_main_sequencer.md R214). -/
def execPhSample (s : State) : Result :=
  whenLive s (.next { s with rdX := s.inX, rdY := s.inY, ph := 3#4 })

/-- PH_MAPD (41_coordinate_mapper.md R112). -/
def execPhMapd (s : State) : Result :=
  whenLive s (.next
    { s with curX := (cursorOf s s.rdX s.rdY).1, curY := (cursorOf s s.rdX s.rdY).2, ph := 4#4,
             freeCount := countFree s (readingsOk s s.rdX s.rdY) })

/-- PH_MAPM (41_coordinate_mapper.md R116). -/
def execPhMapm (s : State) : Result :=
  whenLive s (.next
    { s with cellRow := (cellOf s s.rdX s.rdY).1, cellCol := (cellOf s s.rdX s.rdY).2, ph := 5#4,
             freeCount := countFree s (readingsOk s s.rdX s.rdY) })

/-- PH_DZ (41_coordinate_mapper.md R120). -/
def execPhDz (s : State) : Result :=
  whenLive s (.next { s with movX := movementFlag s.cfg s.rdX s.calX, movY := movementFlag s.cfg s.rdY s.calY, ph := 6#4 })

/-- PH_MBUF (42_matrix_addressing.md R133). -/
def execPhMbuf (s : State) : Result :=
  whenLive s
    (match selectedColour s.cfg s.colSel with
    | some colour => .next { s with mbuf := buildMatrixBuffer s.cfg s.cellRow s.cellCol colour, ph := 7#4 }
    | none => .refused .reservedColSel)

/-- PH_MSEND (42_matrix_addressing.md R135). -/
def execPhMsend (s : State) : Result :=
  whenLive s (.next { emit s (.mx (memWords s.cfg s.mbuf)) with ph := 8#4 })

/-- PH_DRAW (46_main_sequencer.md R215). -/
def execPhDraw (s : State) : Result :=
  whenLive s (.next { emit s (.draw s.curX s.curY) with ph := 9#4 })

/-- PH_SVC1 (46_main_sequencer.md R216). -/
def execPhSvc1 (s : State) : Result := whenLive s (.next (serviceSlot s .one))

/-- PH_SVC2 (46_main_sequencer.md R217). -/
def execPhSvc2 (s : State) : Result := whenLive s (.next (serviceSlot s .two))

/-- PH_SVC3 (46_main_sequencer.md R218). -/
def execPhSvc3 (s : State) : Result := whenLive s (.next (serviceSlot s .three))

/-- PH_PLAY (45_melody_sequencer.md R181): "the step MAIN takes is chosen by `ms`"; with M_IDLE or a reserved code there is no step. -/
def execPhPlay (s : State) : Result :=
  whenLive s
    (match s.ms.toNat with
    | 1 => fetchNote s
    | 2 => whenDue s (.next (highEnd s))
    | 3 => whenDue s (.next (lowEnd s))
    | 4 => whenDue s (.next (restEnd s))
    | 5 => whenDue s (.next (gapEnd s))
    | _ => .refused .noMainStep)

/-- PH_SLEEP (46_main_sequencer.md R219). -/
def execPhSleep (s : State) : Result := whenLive s (whenDue s (.next { s with ph := 1#4 }))

end Sys2Proof.Machine
end

