-- ==== Sys2Proof/Machine/Stim.lean ====
section
/-! DEFINITION. The stimuli of the environment: RST (70_reset_and_hazards.md R270), ADV (46_main_sequencer.md R208), BTN A and BTN B
(44_debounce_mode.md R165), JOY (46_main_sequencer.md R210). -/

namespace Sys2Proof.Machine

/-- RST (R270): every register at its reset value, the history emptied, held-in-reset left; the input levels and the configuration
are not changed, nor is the environment's trace or the count of free values (log entries 23 and 28). -/
def execRst (s : State) : Result :=
  .next { State.afterRst s.cfg s.inX s.inY s.trace with freeCount := s.freeCount }

/-- ADV n (R208): `n` microseconds join what is still to pass, and time passes as far as it may before MAIN's next step; `step` goes on with the rest. -/
def execAdv (n : BitVec 28) (s : State) : Result :=
  whenLive s (.next (passTime { s with adv := s.adv + n.toNat }))

/-- BTN A (R165). -/
def execBtnA (s : State) : Result := whenLive s (edgeStep s .a)

/-- BTN B (R165). -/
def execBtnB (s : State) : Result := whenLive s (edgeStep s .b)

/-- JOY x, y (R210); applied while held in reset too (R271). -/
def execJoy (x y : Reading) (s : State) : Result :=
  if readingOk s.cfg x && readingOk s.cfg y then .next { s with inX := x, inY := y }
  else .refused .readingOutOfRange

end Sys2Proof.Machine
end

