-- ==== Sys2Proof/Machine/Dispatch.lean ====
section
/-! DEFINITION. One arm per operation: each calls its own meaning. -/

namespace Sys2Proof.Machine

def exec (i : Instr) (s : State) : Host.Outcome State Fault Refusal :=
  match i with
  | .rst => Sys2Proof.Machine.execRst s
  | .adv n => Sys2Proof.Machine.execAdv n s
  | .btnA => Sys2Proof.Machine.execBtnA s
  | .btnB => Sys2Proof.Machine.execBtnB s
  | .joy x y => Sys2Proof.Machine.execJoy x y s
  | .phInit => Sys2Proof.Machine.execPhInit s
  | .phRgb => Sys2Proof.Machine.execPhRgb s
  | .phSample => Sys2Proof.Machine.execPhSample s
  | .phMapd => Sys2Proof.Machine.execPhMapd s
  | .phMapm => Sys2Proof.Machine.execPhMapm s
  | .phDz => Sys2Proof.Machine.execPhDz s
  | .phMbuf => Sys2Proof.Machine.execPhMbuf s
  | .phMsend => Sys2Proof.Machine.execPhMsend s
  | .phDraw => Sys2Proof.Machine.execPhDraw s
  | .phSvc1 => Sys2Proof.Machine.execPhSvc1 s
  | .phSvc2 => Sys2Proof.Machine.execPhSvc2 s
  | .phSvc3 => Sys2Proof.Machine.execPhSvc3 s
  | .phPlay => Sys2Proof.Machine.execPhPlay s
  | .phSleep => Sys2Proof.Machine.execPhSleep s
  | .mIdle => Sys2Proof.Machine.execMIdle s
  | .mFetch => Sys2Proof.Machine.execMFetch s
  | .mHigh => Sys2Proof.Machine.execMHigh s
  | .mLow => Sys2Proof.Machine.execMLow s
  | .mRest => Sys2Proof.Machine.execMRest s
  | .mGap => Sys2Proof.Machine.execMGap s
  | .mapToDisplay x y => Sys2Proof.Machine.execMapToDisplay x y s
  | .mapToMatrix x y => Sys2Proof.Machine.execMapToMatrix x y s
  | .buildMatrixBuffer row col colour => Sys2Proof.Machine.execBuildMatrixBuffer row col colour s
  | .serp r c => Sys2Proof.Machine.execSerp r c s
  | .play k => Sys2Proof.Machine.execPlay k s

end Sys2Proof.Machine
end

