-- ==== Sys2Proof/Machine/Step.lean ====
section
/-! DEFINITION. One step of the whole block (46_main_sequencer.md R205 to R208): a stimulus fetched from the trace, a step of MAIN
fetched at `ph`, or time; and the placing of an operation where the next step fetches it. -/

namespace Sys2Proof.Machine

/-- The step that a stimulus word asks for: decoded, taken off the trace, run (R206 b). -/
def stimulusStep (s : State) : Result :=
  match s.trace with
  | [] => .next s
  | st :: _ =>
    match decode (.stim st.word) with
    | .ok i => exec i (dropStimulus s)
    | .error _ => .refused .reservedStimulus

/-- MAIN's step: the operation whose code is in `ph` (10_state.md R36). -/
def mainStep (s : State) : Result :=
  match decode (.phase s.ph) with
  | .ok i => exec i (countLead s)
  | .error _ => .refused .noMainStep

/-- One step. Where nothing is left to do nothing changes: only ADV changes `T` (10_state.md R21), and the end of a run is the
end of the trace (R224; log entry 8). -/
def step (s : State) : Host.Outcome State Fault Refusal :=
  match chooseStep s with
  | .stimulus => stimulusStep s
  | .main => mainStep s
  | .time => .next (passTime s)
  | .idle => .next s

/-- `s` with the operation of a table row's number where the next step fetches it (log entry 16). -/
def State.withFetchWord (s : State) (nbits w : Nat) : State :=
  match tableCode nbits w with
  | some (.stim v) => placeStimulus s v
  | some (.phase c) => placePhase s c
  | some (.mstate c) => placeMState s c
  | none => s

end Sys2Proof.Machine
end

