-- ==== Sys2Proof/Safety.lean ====
section
/-! DEFINITION. The terms claims use: the invariants of 10_state.md R39 and their companions, the step relation of both agents
(46_main_sequencer.md R205, R207), runs, and what a quiescent state is. -/

namespace Sys2Proof.Machine

/-- No step of MAIN is enabled (00_scope.md R16). -/
def Quiescent (s : State) : Prop := mainEnabled s = false

/-- At most one of the three LED registers is 1 (10_state.md R39 f). -/
def ledsOneHot (s : State) : Bool :=
  !(s.ledR && s.ledG) && !(s.ledR && s.ledB) && !(s.ledG && s.ledB)

/-- The invariants of 10_state.md R39, items (a), (b), (c), (d), (f), (g), (h), over one state. (Item (e) is about two states:
`calX` and `calY` do not change after PH_INIT.) -/
structure RegInv (s : State) : Prop where
  selLegal : s.sel ≠ 3#2
  rgbStateLegal : s.rgbState ≠ 3#2
  colSelLegal : s.colSel ≠ 3#2
  mbufOne : Memory.wf s.mbuf = true ∧ s.mbuf.length ≤ 1
  ledsOne : ledsOneHot s = true
  phLegal : s.ph.toNat ≤ 13
  msLegal : s.ms.toNat ≤ 5
  debPast : s.debLast ≤ s.T
  rgbPast : s.rgbLast ≤ s.T

/-- The note sequencer's registers agree with each other and with `ph` (10_state.md R32, R38; 45_melody_sequencer.md R181, R189,
R192, R194). -/
structure NoteInv (s : State) : Prop where
  melIdle : s.mel = 0#2 ↔ s.ms = 0#3
  playIdle : s.ms = 0#3 ↔ s.ph ≠ 12#4
  buzzHigh : s.buzz = true ↔ s.ms = 2#3
  niRange : ∀ k, melodyOfCode s.mel = some k → s.ni.toNat ≤ melodyLen s.cfg k
  niInside : ∀ k, melodyOfCode s.mel = some k → 2 ≤ s.ms.toNat → s.ni.toNat < melodyLen s.cfg k
  cycLeft : s.ms = 2#3 ∨ s.ms = 3#3 → s.cyc ≠ 0#32
  halfRange : s.ms = 2#3 ∨ s.ms = 3#3 → 7 ≤ s.half.toNat ∧ s.half.toNat ≤ 500000
  dlBound : s.dl ≤ s.T + 65535000

/-- The data registers and inputs keep their ranges (10_state.md R22, R28, R29; 41_coordinate_mapper.md R114, R118); a disabled
cycle is dark (43_rgb_cycle.md R148). -/
structure DataInv (s : State) : Prop where
  inRange : s.inX.toNat < s.cfg.period ∧ s.inY.toNat < s.cfg.period
  calRange : s.calX.toNat < s.cfg.period ∧ s.calY.toNat < s.cfg.period
  rdRange : s.rdX.toNat < s.cfg.period ∧ s.rdY.toNat < s.cfg.period
  curRange : s.curX.toNat ≤ 116 ∧ s.curY.toNat ≤ 52
  cellRange : -1 ≤ s.cellRow.toInt ∧ s.cellRow.toInt ≤ 4 ∧ s.cellCol.toNat ≤ 4
  darkDisabled : s.rgbEn = false → s.ledR = false ∧ s.ledG = false ∧ s.ledB = false

/-- The inductive invariant of the whole block; while held in reset no advance is under way (70_reset_and_hazards.md R271). -/
structure BlockInv (s : State) : Prop where
  heldStill : s.held = true → s.adv = 0
  regs : RegInv s
  note : NoteInv s
  data : DataInv s

/-- The state without the model's own bookkeeping of the environment. -/
def bare (s : State) : State := { s with adv := 0, trace := [] }

/-- The step relation (46_main_sequencer.md R205, R207; U8, U9, U20 of 93_implementation_defined.md): MAIN's enabled step; an EDGE
step, JOY or RST at any time; time only while MAIN has no enabled step, and not past the deadline of a wait (R206 a). -/
inductive Rel : State → State → Prop where
  | main {s s' : State} {i : Instr} :
      mainEnabled s = true → decode (.phase s.ph) = .ok i → exec i s = .next s' → Rel s s'
  | edgeA {s s' : State} : exec .btnA s = .next s' → Rel s s'
  | edgeB {s s' : State} : exec .btnB s = .next s' → Rel s s'
  | joy {s s' : State} (x y : Reading) : exec (.joy x y) s = .next s' → Rel s s'
  | reset {s s' : State} : exec .rst s = .next s' → Rel s s'
  | time {s : State} (n : Nat) :
      mainEnabled s = false → s.held = false → (waitingPair s = true → s.T + n ≤ s.dl) → Rel s { s with T := s.T + n }

/-- States a run reaches under the step relation. -/
inductive Reachable (start : State) : State → Prop where
  | refl : Reachable start start
  | tail {s s' : State} : Reachable start s → Rel s s' → Reachable start s'

/-- A relation of states carried to outcomes: next states are related, and a stop is the same stop. -/
def SameOutcome (r : State → State → Prop) : Result → Result → Prop
  | .next s, .next t => r s t
  | .fault a, .fault b => a = b
  | .refused a, .refused b => a = b
  | _, _ => False

/-- The state with the calibration centre and the movement flags blanked: "nothing reads the result" (41_coordinate_mapper.md R120). -/
def withoutDeadzone (s : State) : State :=
  { s with calX := 0#14, calY := 0#14, movX := false, movY := false }

/-- How many events of the history have a kind. -/
def countKind (p : EventKind → Bool) (es : List Event) : Nat := (es.filter (fun e => p e.kind)).length

/-- `ACC(A)` and `ACC(B)`, `BUZZ`, `MELSTART`, `MELEND` (10_state.md R27). -/
def isAccA : EventKind → Bool
  | .acc .a => true
  | _ => false
def isAccB : EventKind → Bool
  | .acc .b => true
  | _ => false
def isBuzz : EventKind → Bool
  | .buzz _ => true
  | _ => false
def isMelStart : EventKind → Bool
  | .melStart _ => true
  | _ => false
def isMelEnd : EventKind → Bool
  | .melEnd _ => true
  | _ => false

/-- What the output history since reset tells of the registers: the selection counts the accepted B edges (44_debounce_mode.md R166),
`rgb_en` the accepted A edges (R163), `buzz` its changes (45_melody_sequencer.md R194), and a melody plays exactly when one more has
started than ended (R182, R185). -/
structure HistoryInv (s : State) : Prop where
  selCounts : s.sel.toNat = countKind isAccB s.out % 3
  colourLast : s.colSel.toNat = (countKind isAccB s.out - 1) % 3
  enCounts : s.rgbEn = (s.cfg.rgbEnReset ^^ decide (countKind isAccA s.out % 2 = 1))
  buzzCounts : s.buzz = decide (countKind isBuzz s.out % 2 = 1)
  melodyCounts : countKind isMelStart s.out = countKind isMelEnd s.out + (if s.mel = 0#2 then 0 else 1)

/-- `k` steps of the model's step function. -/
def runSteps (k : Nat) (s : State) : Host.Outcome State Fault Refusal := Host.Core.run Sys2Proof.core k s

end Sys2Proof.Machine
end

