-- ==== Sys2Proof/Certificates/Slice0/Obligations.lean ====
section
/-! DEFINITION. The statements for the provers, each with the rule of spec/ it formalises. Numbers and formulas are written out here from
the rules; the model's own functions stand only where a rule names the same function. -/

open Sys2Proof Sys2Proof.Machine

/-! ### Encoding (30_encoding.md) -/

/-- Decoding is right on words written out from R81 to R87 (vector V7 of 95_test_vectors.md). -/
def Obligations.DecodesWrittenOutWords : Prop :=
  decode (.stim 0x00000000#32) = .ok .rst ∧ decode (.stim 0x1000C350#32) = .ok (.adv 50000#28) ∧
  decode (.stim 0x20000000#32) = .ok .btnA ∧ decode (.stim 0x20000001#32) = .ok .btnB ∧
  decode (.stim 0x33FFC000#32) = .ok (.joy 4095#14 0#14) ∧ decode (.stim 0x30000FFF#32) = .ok (.joy 0#14 4095#14) ∧
  decode (.phase 0b0001#4) = .ok .phRgb ∧ decode (.phase 0b1101#4) = .ok .phSleep ∧
  decode (.mstate 0b101#3) = .ok .mGap

/-- Decode and encode agree: on every row with an encoding of its own, every operand at every value, decoding the code gives the operation
back; the code of a contract function, which "has no encoding of its own" (R98), decodes to the phase that computes it. -/
def Obligations.DecodeEncodeRoundTrip : Prop :=
  ∀ i : Instr, i.wellFormed = true →
    (i.hasOwnCode = true → decode (encode i) = .ok i) ∧ (i.hasOwnCode = false → decode (encode i) = .ok i.carrier)

/-- Each code has one meaning: what decodes to an operation is that operation's code, and the operation is well-formed. -/
def Obligations.EncodeDecodeRoundTrip : Prop :=
  ∀ (c : Code) (i : Instr), decode c = .ok i → encode i = c ∧ i.wellFormed = true ∧ i.hasOwnCode = true

/-- Which stimulus words are refused (R94 a): reserved opcodes, RST with an argument, BTN with a reserved bit, and no other. -/
def Obligations.ReservedStimulusWordsExactly : Prop :=
  ∀ w : Word, (∃ r, decode (.stim w) = .error r) ↔
    (0x40000000 ≤ w.toNat ∨ (0 < w.toNat ∧ w.toNat < 0x10000000) ∨ (0x20000001 < w.toNat ∧ w.toNat < 0x30000000))

/-- The pseudo-operations' expansions (R97). -/
def Obligations.PseudoOperationsExpand : Prop :=
  (∀ m : Nat, m ≤ 268435 → ∃ n : BitVec 28, pseudoAdvms m = some (.adv n) ∧ n.toNat = 1000 * m) ∧
  (∀ m : Nat, 268435 < m → pseudoAdvms m = none) ∧
  (∀ k : Nat, k ≤ 5368 → ∃ n : BitVec 28, pseudoTicks k = some (.adv n) ∧ n.toNat = 50000 * k) ∧
  (∀ k : Nat, 5368 < k → pseudoTicks k = none) ∧
  (∀ c : Config, ∃ x : Reading, pseudoCenter c = .joy x x ∧ x.toNat = c.period / 2) ∧
  pseudoPress .a = .btnA ∧ pseudoPress .b = .btnB

/-! ### What one step of the block is (46_main_sequencer.md R205 to R208) -/

/-- A step runs the stimulus word at the head of the trace: at a quiescent point with no time left to pass (R206 b), or, where the word's
lead is 0, ahead of MAIN's enabled step. R207 lets an EDGE step, JOY and RST fall between two MAIN steps; that a lead of 0 says so, and
that it does for any word, ADV too, is the model's choice (log entry 1). A reserved word is refused (R94). -/
def Obligations.StepRunsTheStimulusWord : Prop :=
  ∀ (s : State) (st : Stimulus) (rest : List Stimulus), s.trace = st :: rest → s.adv = 0 →
    (st.lead = some 0 ∨ mainEnabled s = false) →
    (∀ i, decode (.stim st.word) = .ok i → step s = exec i { s with trace := rest }) ∧
    (∀ r, decode (.stim st.word) = .error r → step s = .refused .reservedStimulus)

/-- A step runs MAIN's operation, the one whose code is in `ph`, whenever MAIN is enabled and no stimulus preempts it. Beside that the step
only counts against the lead of the next stimulus, once no advance is under way (log entry 1). -/
def Obligations.StepRunsThePhaseAtPh : Prop :=
  ∀ (s : State) (i : Instr), mainEnabled s = true →
    (∀ st rest, s.trace = st :: rest → s.adv = 0 → st.lead ≠ some 0) →
    decode (.phase s.ph) = .ok i →
    ((s.adv ≠ 0 ∨ s.trace = [] ∨ ∃ w rest, s.trace = ⟨w, none⟩ :: rest) → step s = exec i s) ∧
    (∀ w k rest, s.adv = 0 → s.trace = ⟨w, some (k + 1)⟩ :: rest → step s = exec i { s with trace := ⟨w, some k⟩ :: rest })

/-- Where MAIN is not enabled a step lets the rest of an advance pass up to the next deadline; with nothing left to do nothing changes
(log entry 8). -/
def Obligations.StepPassesTimeOrIdles : Prop :=
  ∀ s : State, mainEnabled s = false →
    (s.adv ≠ 0 → waitingPair s = true → s.dl < s.T + s.adv →
      step s = .next { s with T := s.T + (s.dl - s.T), adv := s.adv - (s.dl - s.T) }) ∧
    (s.adv ≠ 0 → (waitingPair s = false ∨ s.T + s.adv ≤ s.dl) → step s = .next { s with T := s.T + s.adv, adv := 0 }) ∧
    (s.adv = 0 → s.trace = [] → step s = .next s)

/-- MAIN is enabled exactly in the rows of R205's table, and never while held in reset (R271). -/
def Obligations.EnablingConditionsOfMain : Prop :=
  ∀ s : State, mainEnabled s = true ↔
    s.held = false ∧
      ((s.ph.toNat ≤ 11 ∧ s.ms.toNat = 0) ∨ (s.ph.toNat = 12 ∧ s.ms.toNat = 1) ∨
       (s.ph.toNat = 12 ∧ 2 ≤ s.ms.toNat ∧ s.ms.toNat ≤ 5 ∧ s.dl ≤ s.T) ∨
       (s.ph.toNat = 13 ∧ s.ms.toNat = 0 ∧ s.dl ≤ s.T))

/-! ### Stimuli -/

/-- RST: every register at its reset value, `T` 0, the buffer 0, the history empty; inputs and configuration unchanged (R43); the block is
no longer held in reset (R270). That the environment's pending trace and the count of free values stay is the model's choice (log entries
23 and 28). -/
def Obligations.RstGivesEveryResetValue : Prop :=
  ∀ s : State, ∃ t, exec .rst s = .next t ∧ t.held = false ∧ t.T = 0 ∧
    t.calX = 0#14 ∧ t.calY = 0#14 ∧ t.rdX = 0#14 ∧ t.rdY = 0#14 ∧ t.curX = 0#8 ∧ t.curY = 0#8 ∧
    t.cellRow = 0#4 ∧ t.cellCol = 0#4 ∧ t.movX = false ∧ t.movY = false ∧
    t.debLast = 0 ∧ t.rgbEn = s.cfg.rgbEnReset ∧ t.sel = 0#2 ∧ t.colSel = 0#2 ∧
    t.melreq1 = false ∧ t.melreq2 = false ∧ t.melreq3 = false ∧ t.rgbState = 0#2 ∧ t.rgbLast = 0 ∧
    t.ledR = false ∧ t.ledG = false ∧ t.ledB = false ∧ t.ph = 0#4 ∧ t.dl = 0 ∧ t.mel = 0#2 ∧ t.ni = 0#8 ∧ t.ms = 0#3 ∧
    t.cyc = 0#32 ∧ t.half = 0#19 ∧ t.buzz = false ∧ (∀ i, memRead t.mbuf i = 0#32) ∧ t.out = [] ∧
    t.cfg = s.cfg ∧ t.inX = s.inX ∧ t.inY = s.inY ∧ t.trace = s.trace ∧ t.freeCount = s.freeCount

/-- Held in reset (R271): MAIN takes no step, the level outputs of the power-on state are low, ADV and BTN are refused, JOY sets
the input levels as usual, and RST ends the condition. -/
def Obligations.HeldInResetBehaviour : Prop :=
  (State.powerOn.held = true ∧ State.powerOn.ledR = false ∧ State.powerOn.ledG = false ∧ State.powerOn.ledB = false ∧
    State.powerOn.buzz = false) ∧
  ∀ s : State, s.held = true →
    mainEnabled s = false ∧
    (∀ n, exec (.adv n) s = .refused .heldInReset) ∧
    exec .btnA s = .refused .heldInReset ∧ exec .btnB s = .refused .heldInReset ∧
    (∀ x y : Reading, x.toNat < s.cfg.period → y.toNat < s.cfg.period →
      exec (.joy x y) s = .next { s with inX := x, inY := y }) ∧
    (∃ t, exec .rst s = .next t ∧ t.held = false)

/-- ADV n (R206 a, R208): time passes only while MAIN has no enabled step, and never past the deadline of a wait; what is left
is kept (log entry 7). -/
def Obligations.AdvPassesTimeUpToTheDeadline : Prop :=
  ∀ (s : State) (n : BitVec 28), s.held = false →
    exec (.adv n) s = .next
      (if mainEnabled s then { s with adv := s.adv + n.toNat }
       else if waitingPair s = true ∧ s.dl < s.T + (s.adv + n.toNat) then
         { s with T := s.T + (s.dl - s.T), adv := s.adv + n.toNat - (s.dl - s.T) }
       else { s with T := s.T + (s.adv + n.toNat), adv := 0 })

/-- "`ADV 0` does nothing. `ADV a; ADV b` is the same as `ADV (a + b)`" (R208), where the sum has an encoding. -/
def Obligations.AdvAddsUp : Prop :=
  ∀ (s : State), s.held = false →
    (s.adv = 0 → exec (.adv 0#28) s = .next s) ∧
    (∀ a b : BitVec 28, a.toNat + b.toNat < 2 ^ 28 →
      ∃ t u, exec (.adv a) s = .next t ∧ exec (.adv b) t = .next u ∧ exec (.adv (a + b)) s = .next u)

/-- JOY x, y (R210): the word, the refusal of a reading at or above PERIOD, and the levels set with nothing else changed. -/
def Obligations.JoySetsTheInputLevels : Prop :=
  ∀ (s : State) (x y : Reading),
    encode (.joy x y) = .stim (BitVec.ofNat 32 (0x30000000 + 16384 * x.toNat + y.toNat)) ∧
    (x.toNat < s.cfg.period ∧ y.toNat < s.cfg.period → exec (.joy x y) s = .next { s with inX := x, inY := y }) ∧
    (s.cfg.period ≤ x.toNat ∨ s.cfg.period ≤ y.toNat → exec (.joy x y) s = .refused .readingOutOfRange)

/-! ### Buttons (44_debounce_mode.md) -/

/-- The gate (R161): at 200 000 us or more after the last accepted edge on either button an edge is accepted, with `deb_last <- T` and
`ACC`; before, `REJ` and no other state changes. -/
def Obligations.DebounceGateDecidesOnElapsedTime : Prop :=
  ∀ s : State, s.held = false →
    (200000 ≤ (s.T : Int) - (s.debLast : Int) →
      (∃ t es, exec .btnA s = .next t ∧ t.debLast = s.T ∧ t.out = s.out ++ ⟨s.T, .acc .a⟩ :: es) ∧
      (s.sel ≠ 3#2 → ∃ t es, exec .btnB s = .next t ∧ t.debLast = s.T ∧ t.out = s.out ++ ⟨s.T, .acc .b⟩ :: es)) ∧
    ((s.T : Int) - (s.debLast : Int) < 200000 →
      exec .btnA s = .next { s with out := s.out ++ [⟨s.T, .rej .a⟩] } ∧
      exec .btnB s = .next { s with out := s.out ++ [⟨s.T, .rej .b⟩] })

/-- The button A action (R163): `rgb_en` toggled, the three LED registers cleared, `LED(0,0,0)` emitted if any was 1. -/
def Obligations.ButtonATogglesTheCycle : Prop :=
  ∀ s : State, s.held = false → s.debLast + 200000 ≤ s.T →
    exec .btnA s = .next
      { s with debLast := s.T, rgbEn := !s.rgbEn, ledR := false, ledG := false, ledB := false,
               out := s.out ++ ⟨s.T, .acc .a⟩ ::
                 (if s.ledR ∨ s.ledG ∨ s.ledB then [⟨s.T, .led false false false⟩] else []) }

/-- The button B action (R164): the value before the increment selects the colour and requests the melody, then advances modulo 3;
the reserved value is refused (30_encoding.md R94 c). -/
def Obligations.ButtonBSelectsAndRequests : Prop :=
  ∀ s : State, s.held = false → s.debLast + 200000 ≤ s.T →
    (s.sel = 0#2 → exec .btnB s = .next
      { s with debLast := s.T, colSel := 0#2, melreq1 := true, sel := 1#2, out := s.out ++ [⟨s.T, .acc .b⟩] }) ∧
    (s.sel = 1#2 → exec .btnB s = .next
      { s with debLast := s.T, colSel := 1#2, melreq2 := true, sel := 2#2, out := s.out ++ [⟨s.T, .acc .b⟩] }) ∧
    (s.sel = 2#2 → exec .btnB s = .next
      { s with debLast := s.T, colSel := 2#2, melreq3 := true, sel := 0#2, out := s.out ++ [⟨s.T, .acc .b⟩] }) ∧
    (s.sel = 3#2 → exec .btnB s = .refused .reservedSel)

/-- The gate as a state machine of `T` and `deb_last` (R162): READY goes to LOCKOUT on an accepted edge, LOCKOUT stays LOCKOUT on a rejected
one, time alone makes it READY, and after reset it is in LOCKOUT until `T` = 200 000. -/
def Obligations.GateIsATwoStateMachine : Prop :=
  (∀ s : State, (gateState s = .ready ↔ 200000 ≤ (s.T : Int) - (s.debLast : Int)) ∧
    ∀ (i : Instr) (t : State), (i = .btnA ∨ i = .btnB) → exec i s = .next t →
      gateState t = .lockout ∧ t.T = s.T ∧
      (gateState s = .ready → t.debLast = s.T) ∧ (gateState s = .lockout → t.debLast = s.debLast)) ∧
  (∀ (s : State) (n : Nat), s.debLast ≤ s.T →
    (gateState { s with T := s.T + n } = .ready ↔ s.debLast + 200000 ≤ s.T + n)) ∧
  (∀ (c : Config) (x y : Reading) (tr : List Stimulus) (n : Nat),
    gateState { State.afterRst c x y tr with T := n } = .lockout ↔ n < 200000)

/-- Five accepted B presses from reset, each 200 ms or more after the one before, the request flags consumed in between (R166): the colours
selected are 0, 1, 2, 0, 1, the selection after each is 1, 2, 0, 1, 2, and melodies 1, 2, 3, 1, 2 are requested. -/
def Obligations.SelectionSequenceOverFivePresses : Prop :=
  ∀ (c : Config) (x y : Reading) (tr : List Stimulus) (w0 w1 w2 w3 w4 : Nat),
    200000 ≤ w0 → 200000 ≤ w1 → 200000 ≤ w2 → 200000 ≤ w3 → 200000 ≤ w4 →
    ∀ wait : Nat → State → State,
    wait = (fun w s => { s with T := s.T + w, melreq1 := false, melreq2 := false, melreq3 := false }) →
    ∃ t0 t1 t2 t3 t4 : State,
      exec .btnB (wait w0 (State.afterRst c x y tr)) = .next t0 ∧ exec .btnB (wait w1 t0) = .next t1 ∧
      exec .btnB (wait w2 t1) = .next t2 ∧ exec .btnB (wait w3 t2) = .next t3 ∧ exec .btnB (wait w4 t3) = .next t4 ∧
      [t0.colSel, t1.colSel, t2.colSel, t3.colSel, t4.colSel] = [0#2, 1#2, 2#2, 0#2, 1#2] ∧
      [t0.sel, t1.sel, t2.sel, t3.sel, t4.sel] = [1#2, 2#2, 0#2, 1#2, 2#2] ∧
      [t0.melreq1, t1.melreq1, t2.melreq1, t3.melreq1, t4.melreq1] = [true, false, false, true, false] ∧
      [t0.melreq2, t1.melreq2, t2.melreq2, t3.melreq2, t4.melreq2] = [false, true, false, false, true] ∧
      [t0.melreq3, t1.melreq3, t2.melreq3, t3.melreq3, t4.melreq3] = [false, false, true, false, false]

/-! ### The tick's phases -/

/-- PH_INIT (R273) and PH_SAMPLE (46_main_sequencer.md R214) latch the two inputs. -/
def Obligations.InitAndSampleLatchTheInputs : Prop :=
  ∀ s : State, s.held = false →
    exec .phInit s = .next { s with calX := s.inX, calY := s.inY, ph := 1#4 } ∧
    exec .phSample s = .next { s with rdX := s.inX, rdY := s.inY, ph := 3#4 }

/-- PH_RGB (43_rgb_cycle.md R147). Enabled and due: the channel of `rgb_state` alone is lit, the state advances modulo 3, the time is
recorded, one LED event if the value changed. Enabled and not due: only `ph`. Disabled: the LEDs are written off, nothing else but
`ph`, "whatever `T` is". The reserved `rgb_state` = 3 (30_encoding.md R94 c) is refused by the firing, which reads it, and by nothing
else: that the clauses of a disabled cycle and of one not due hold at 3 too is the model's choice (log entry 10). -/
def Obligations.ColourCycleStep : Prop :=
  ∀ s : State, s.held = false →
    (s.rgbEn = true → 300000 ≤ (s.T : Int) - (s.rgbLast : Int) →
      (s.rgbState = 0#2 → exec .phRgb s = .next
        { s with ledR := false, ledG := false, ledB := true, rgbState := 1#2, rgbLast := s.T, ph := 2#4,
                 out := s.out ++ (if s.ledR = false ∧ s.ledG = false ∧ s.ledB = true then [] else [⟨s.T, .led false false true⟩]) }) ∧
      (s.rgbState = 1#2 → exec .phRgb s = .next
        { s with ledR := true, ledG := false, ledB := false, rgbState := 2#2, rgbLast := s.T, ph := 2#4,
                 out := s.out ++ (if s.ledR = true ∧ s.ledG = false ∧ s.ledB = false then [] else [⟨s.T, .led true false false⟩]) }) ∧
      (s.rgbState = 2#2 → exec .phRgb s = .next
        { s with ledR := false, ledG := true, ledB := false, rgbState := 0#2, rgbLast := s.T, ph := 2#4,
                 out := s.out ++ (if s.ledR = false ∧ s.ledG = true ∧ s.ledB = false then [] else [⟨s.T, .led false true false⟩]) }) ∧
      (s.rgbState = 3#2 → exec .phRgb s = .refused .reservedRgbState)) ∧
    (s.rgbEn = true → (s.T : Int) - (s.rgbLast : Int) < 300000 → exec .phRgb s = .next { s with ph := 2#4 }) ∧
    (s.rgbEn = false → exec .phRgb s = .next
      { s with ledR := false, ledG := false, ledB := false, ph := 2#4,
               out := s.out ++ (if s.ledR ∨ s.ledG ∨ s.ledB then [⟨s.T, .led false false false⟩] else []) })

/-- PH_MAPD (41_coordinate_mapper.md R111, R112): each coordinate is `clamp(floor(v * extent / PERIOD) - 4, 4, hi)`. -/
def Obligations.DisplayMappingOfTheReading : Prop :=
  ∀ s : State, s.held = false → s.rdX.toNat < s.cfg.period → s.rdY.toNat < s.cfg.period →
    ∃ cx cy : BitVec 8, exec .phMapd s = .next { s with curX := cx, curY := cy, ph := 4#4 } ∧
      (cx.toNat : Int) = max 4 (min 116 (((s.rdX.toNat * 128 / s.cfg.period : Nat) : Int) - 4)) ∧
      (cy.toNat : Int) = max 4 (min 52 (((s.rdY.toNat * 64 / s.cfg.period : Nat) : Int) - 4))

/-- Where the clamp takes hold (R113). -/
def Obligations.DisplayClampTakesHoldExactly : Prop :=
  ∀ (c : Config) (x y : Reading), x.toNat < c.period → y.toNat < c.period →
    ((mapToDisplay c x y).1 = 4#8 ↔ x.toNat * 128 < 9 * c.period) ∧
    ((mapToDisplay c x y).1 = 116#8 ↔ 120 * c.period ≤ x.toNat * 128) ∧
    ((mapToDisplay c x y).2 = 4#8 ↔ y.toNat * 64 < 9 * c.period) ∧
    ((mapToDisplay c x y).2 = 52#8 ↔ 56 * c.period ≤ y.toNat * 64)

/-- Properties of the display mapping (R114): each coordinate depends on its own axis, is non-decreasing, and stays in range. -/
def Obligations.DisplayMappingMonotoneAndBounded : Prop :=
  ∀ (c : Config) (x x' y y' : Reading), x.toNat ≤ x'.toNat → x'.toNat < c.period → y.toNat ≤ y'.toNat → y'.toNat < c.period →
    (mapToDisplay c x y).1 = (mapToDisplay c x y').1 ∧ (mapToDisplay c x y).2 = (mapToDisplay c x' y).2 ∧
    (mapToDisplay c x y).1.toNat ≤ (mapToDisplay c x' y).1.toNat ∧ (mapToDisplay c x y).2.toNat ≤ (mapToDisplay c x y').2.toNat ∧
    4 ≤ (mapToDisplay c x y).1.toNat ∧ (mapToDisplay c x y).1.toNat ≤ 116 ∧
    4 ≤ (mapToDisplay c x y).2.toNat ∧ (mapToDisplay c x y).2.toNat ≤ 52

/-- PH_MAPM (R115 to R117): row and column of the matrix cell, for either row variant. -/
def Obligations.MatrixMappingOfTheReading : Prop :=
  ∀ s : State, s.held = false → s.rdX.toNat < s.cfg.period → s.rdY.toNat < s.cfg.period →
    ∃ row col : BitVec 4, exec .phMapm s = .next { s with cellRow := row, cellCol := col, ph := 5#4 } ∧
      (s.cfg.rowVariant = .double → row.toInt = 4 - (((s.cfg.period - s.rdY.toNat) * 5 / s.cfg.period : Nat) : Int)) ∧
      (s.cfg.rowVariant = .single → row.toInt = 4 - ((s.rdY.toNat * 5 / s.cfg.period : Nat) : Int)) ∧
      col.toNat = s.rdX.toNat * 5 / s.cfg.period

/-- Which cells can occur with DOUBLE (R118): the column is 0 to 4, the row -1 exactly at `rd_y` = 0 and 0 to 4 otherwise. -/
def Obligations.OffGridOnlyAtReadingZero : Prop :=
  ∀ (c : Config) (x y : Reading), c.rowVariant = .double → x.toNat < c.period → y.toNat < c.period →
    (mapToMatrix c x y).2.toNat ≤ 4 ∧
    ((mapToMatrix c x y).1.toInt = -1 ↔ y.toNat = 0) ∧
    (1 ≤ y.toNat → 0 ≤ (mapToMatrix c x y).1.toInt ∧ (mapToMatrix c x y).1.toInt ≤ 4) ∧
    (cellValid c (mapToMatrix c x y).1 (mapToMatrix c x y).2 = false ↔ y.toNat = 0)

/-- The two row variants are mirror images where `y * 5` is no multiple of PERIOD, and SINGLE is never off the grid (R117). -/
def Obligations.RowVariantsMirrorEachOther : Prop :=
  ∀ (c : Config) (x y : Reading), x.toNat < c.period → y.toNat < c.period →
    cellValid c (mapToMatrix { c with rowVariant := .single } x y).1 (mapToMatrix { c with rowVariant := .single } x y).2 = true ∧
    (1 ≤ y.toNat → y.toNat * 5 % c.period ≠ 0 →
      (mapToMatrix { c with rowVariant := .double } x y).1.toInt = ((y.toNat * 5 / c.period : Nat) : Int) ∧
      (mapToMatrix { c with rowVariant := .single } x y).1.toInt =
        4 - (mapToMatrix { c with rowVariant := .double } x y).1.toInt)

/-- PH_DZ (R120): the movement flags, more than 250 away from the centre on each axis. -/
def Obligations.DeadzoneComparesWithTheCentre : Prop :=
  ∀ s : State, s.held = false →
    exec .phDz s = .next
      { s with movX := decide (250 < ((s.rdX.toNat : Int) - (s.calX.toNat : Int)).natAbs),
               movY := decide (250 < ((s.rdY.toNat : Int) - (s.calY.toNat : Int)).natAbs), ph := 6#4 }

/-- PH_MBUF (42_matrix_addressing.md R131, R133): the selected colour at the serpentine index of a valid cell, every other word 0; nothing
else but `ph` changes. The buffer's canonical form is the model's own representation (log entry 17). The reserved `col_sel` is refused
(30_encoding.md R94 c; log entry 10). -/
def Obligations.MatrixBufferHoldsTheActiveCell : Prop :=
  ∀ s : State, s.held = false →
    (∀ colour, (s.colSel = 0#2 ∧ colour = s.cfg.colour1 ∨ s.colSel = 1#2 ∧ colour = s.cfg.colour2 ∨
                s.colSel = 2#2 ∧ colour = s.cfg.colour3) →
      ∃ m, exec .phMbuf s = .next { s with mbuf := m, ph := 7#4 } ∧ Memory.wf m = true ∧
        ((0 ≤ s.cellRow.toInt ∧ s.cellRow.toInt < 5 ∧ s.cellCol.toNat < 5) →
          ∀ i, memRead m i =
            if i = 5 * s.cellRow.toNat + (if s.cellRow.toNat % 2 = 0 then 4 - s.cellCol.toNat else s.cellCol.toNat)
            then colour else 0#32) ∧
        (¬ (0 ≤ s.cellRow.toInt ∧ s.cellRow.toInt < 5 ∧ s.cellCol.toNat < 5) → ∀ i, memRead m i = 0#32)) ∧
    (s.colSel = 3#2 → exec .phMbuf s = .refused .reservedColSel)

/-- After PH_MBUF `mbuf` has exactly one non-zero word if `cell_valid` held, and none otherwise, the colours being non-zero
(20_memory.md R65). -/
def Obligations.MatrixIsSingleCellLit : Prop :=
  ∀ s t : State, exec .phMbuf s = .next t →
    (cellValid s.cfg s.cellRow s.cellCol = true → ∃ i, i < 25 ∧ memRead t.mbuf i ≠ 0#32 ∧ ∀ j, j ≠ i → memRead t.mbuf j = 0#32) ∧
    (cellValid s.cfg s.cellRow s.cellCol = false → ∀ j, memRead t.mbuf j = 0#32)

/-- `serp` (R131) and `unserp` (R132) are their formulas, `serp` is a bijection from the 25 cells onto 0 to 24 and `unserp` is its inverse. -/
def Obligations.SerpentineIndexIsABijection : Prop :=
  (∀ r c : Nat, r ≤ 4 → c ≤ 4 →
    serpIndex r c = (if r = 0 ∨ r = 2 ∨ r = 4 then 5 * r + (4 - c) else 5 * r + c) ∧
    serpIndex r c ≤ 24 ∧ unserp (serpIndex r c) = (r, c)) ∧
  (∀ i : Nat, i ≤ 24 →
    (unserp i).1 = i / 5 ∧ (unserp i).2 = (if (i / 5) % 2 = 0 then 4 - i % 5 else i % 5) ∧
    (unserp i).1 ≤ 4 ∧ (unserp i).2 ≤ 4 ∧ serpIndex (unserp i).1 (unserp i).2 = i)

/-- PH_MSEND (R135) emits the 25 words in index order, PH_DRAW (46_main_sequencer.md R215) the cursor position; nothing else but
`ph` changes. -/
def Obligations.SendAndDrawEmitTheirEvents : Prop :=
  ∀ s : State, s.held = false →
    (∃ words : List Word, exec .phMsend s = .next { s with out := s.out ++ [⟨s.T, .mx words⟩], ph := 8#4 } ∧
      words.length = 25 ∧ ∀ i, i < 25 → words[i]? = some (memRead s.mbuf i)) ∧
    exec .phDraw s = .next { s with out := s.out ++ [⟨s.T, .draw s.curX s.curY⟩], ph := 9#4 }

/-- PH_SVC1 to PH_SVC3 (46_main_sequencer.md R216 to R218): with the flag set the melody starts (45_melody_sequencer.md R182) and the flag is
cleared exactly with MELREQ_CLEAR = START; with the flag clear, `after(k)` (R213). -/
def Obligations.ServiceSlotStartsTheMelodyOrPassesOn : Prop :=
  ∀ s : State, s.held = false →
    (s.melreq1 = true → exec .phSvc1 s = .next
      { s with melreq1 := decide (s.cfg.melreqClear = .atEnd), mel := 1#2, ni := 0#8, ms := 1#3, ph := 12#4,
               out := s.out ++ [⟨s.T, .melStart .one⟩] }) ∧
    (s.melreq2 = true → exec .phSvc2 s = .next
      { s with melreq2 := decide (s.cfg.melreqClear = .atEnd), mel := 2#2, ni := 0#8, ms := 1#3, ph := 12#4,
               out := s.out ++ [⟨s.T, .melStart .two⟩] }) ∧
    (s.melreq3 = true → exec .phSvc3 s = .next
      { s with melreq3 := decide (s.cfg.melreqClear = .atEnd), mel := 3#2, ni := 0#8, ms := 1#3, ph := 12#4,
               out := s.out ++ [⟨s.T, .melStart .three⟩] }) ∧
    (s.melreq1 = false → exec .phSvc1 s = .next { s with ph := 10#4 }) ∧
    (s.melreq2 = false → exec .phSvc2 s = .next { s with ph := 11#4 }) ∧
    (s.melreq3 = false → exec .phSvc3 s = .next { s with ph := 13#4, dl := s.T + 50000 })

/-- The waiting operations before their deadline leave MAIN where it is (R205, R222; log entry 11). -/
def Obligations.WaitsHoldBeforeTheDeadline : Prop :=
  ∀ s : State, s.held = false → s.T < s.dl →
    exec .phSleep s = .next s ∧ exec .mHigh s = .next s ∧ exec .mLow s = .next s ∧ exec .mRest s = .next s ∧
    exec .mGap s = .next s ∧ (2 ≤ s.ms.toNat → s.ms.toNat ≤ 5 → exec .phPlay s = .next s)

/-! ### The note sequencer (45_melody_sequencer.md) -/

/-- PH_PLAY (R181): the step is that of the code in `ms`; with M_IDLE or a reserved code there is none. M_IDLE (R87, R181), "no melody
playing; no step", changes nothing; in PH_PLAY it is the stuck combination (30_encoding.md R94 d; log entry 12). -/
def Obligations.CodeInMsSelectsTheNoteStep : Prop :=
  ∀ s : State, s.held = false →
    (∀ i, decode (.mstate s.ms) = .ok i → i ≠ .mIdle → exec .phPlay s = exec i s) ∧
    ((s.ms = 0#3 ∨ s.ms = 6#3 ∨ s.ms = 7#3) → exec .phPlay s = .refused .noMainStep) ∧
    (s.ph ≠ 12#4 → exec .mIdle s = .next s) ∧ (s.ph = 12#4 → exec .mIdle s = .refused .noMainStep)

/-- PH_PLAY completes in every state that keeps the invariant with its step enabled: it takes the step of the code in `ms`, which goes on to
another code (R181, R205, R222). -/
def Obligations.PlayCompletesUnderTheInvariant : Prop :=
  ∀ s : State, BlockInv s → mainEnabled s = true → s.ph = 12#4 →
    ∃ i t, decode (.mstate s.ms) = .ok i ∧ exec i s = .next t ∧ exec .phPlay s = .next t ∧ t.ms ≠ s.ms

/-- M_FETCH (R183). Inside a melody it enters a rest, a tone with no cycle (R187), or a tone. At the end of the melody (R185) the melody
ends and MAIN goes on after the slot that started it; with MELREQ_CLEAR = END the flag is cleared here. -/
def Obligations.FetchEntersTheNextEntryOrEndsTheMelody : Prop :=
  (∀ (s : State) (k : MelodyNo) (w : Word), s.held = false → melodyOfCode s.mel = some k →
    s.ni.toNat < melodyLen s.cfg k → noteRead s.cfg k s.ni.toNat = some w →
    ∀ f d : Nat, f = w.toNat / 65536 → d = w.toNat % 65536 →
    (f = 0 → exec .mFetch s = .next
      { s with buzz := false, dl := s.T + 1000 * d, ms := 4#3,
               out := s.out ++ (if s.buzz then [⟨s.T, .buzz false⟩] else []) }) ∧
    (1 ≤ f → f * d < 1000 → ∃ h : BitVec 19, h.toNat = 500000 / f ∧ exec .mFetch s = .next
      { s with cyc := 0#32, half := h, dl := s.T + 20000, ms := 5#3 }) ∧
    (1 ≤ f → 1000 ≤ f * d → ∃ (c : BitVec 32) (h : BitVec 19), c.toNat = f * d / 1000 ∧ h.toNat = 500000 / f ∧
      exec .mFetch s = .next
        { s with cyc := c, half := h, buzz := true, dl := s.T + 500000 / f, ms := 2#3,
                 out := s.out ++ (if s.buzz then [] else [⟨s.T, .buzz true⟩]) })) ∧
  (∀ s : State, s.held = false →
    (s.mel = 1#2 → s.ni.toNat = s.cfg.mel1.length → exec .mFetch s = .next
      { s with melreq1 := s.melreq1 && decide (s.cfg.melreqClear = .start), mel := 0#2, ni := 0#8, ms := 0#3, ph := 10#4,
               out := s.out ++ [⟨s.T, .melEnd .one⟩] }) ∧
    (s.mel = 2#2 → s.ni.toNat = s.cfg.mel2.length → exec .mFetch s = .next
      { s with melreq2 := s.melreq2 && decide (s.cfg.melreqClear = .start), mel := 0#2, ni := 0#8, ms := 0#3, ph := 11#4,
               out := s.out ++ [⟨s.T, .melEnd .two⟩] }) ∧
    (s.mel = 3#2 → s.ni.toNat = s.cfg.mel3.length → exec .mFetch s = .next
      { s with melreq3 := s.melreq3 && decide (s.cfg.melreqClear = .start), mel := 0#2, ni := 0#8, ms := 0#3, ph := 13#4,
               dl := s.T + 50000, out := s.out ++ [⟨s.T, .melEnd .three⟩] }))

/-- PH_SLEEP (46_main_sequencer.md R219), M_HIGH (R188), M_LOW (R189), M_REST (R190) and M_GAP (R192) at their deadline. -/
def Obligations.WaitingStepsFireAtTheDeadline : Prop :=
  ∀ s : State, s.held = false → s.dl ≤ s.T →
    exec .phSleep s = .next { s with ph := 1#4 } ∧
    exec .mHigh s = .next
      { s with buzz := false, dl := s.T + s.half.toNat, ms := 3#3,
               out := s.out ++ (if s.buzz then [⟨s.T, .buzz false⟩] else []) } ∧
    (s.cyc.toNat = 1 → exec .mLow s = .next { s with cyc := 0#32, dl := s.T + 20000, ms := 5#3 }) ∧
    (2 ≤ s.cyc.toNat → ∃ c : BitVec 32, c.toNat = s.cyc.toNat - 1 ∧ exec .mLow s = .next
      { s with cyc := c, buzz := true, dl := s.T + s.half.toNat, ms := 2#3,
               out := s.out ++ (if s.buzz then [] else [⟨s.T, .buzz true⟩]) }) ∧
    exec .mRest s = .next { s with dl := s.T + 20000, ms := 5#3 } ∧
    (s.ni.toNat < 255 → ∃ n : BitVec 8, n.toNat = s.ni.toNat + 1 ∧ exec .mGap s = .next { s with ni := n, ms := 1#3 })

/-- Values outside the ranges the rules keep; no reachable state has one, and what happens is the model's choice. Where the rules state the
effect and not the value (a reading at or above PERIOD in a mapping, R111 and R115, log entry 18; `cyc - 1` at 0, R189, and `ni + 1` at
255, R192, log entry 19) the operation completes: that one value is free, a coordinate whose own reading is in range has its stated value,
every other effect is as the rule says, and the count of free values moves on (log entry 28). Where the rules say that the step has no
meaning it is refused: a reserved `mel` (R94 c, log entry 10), an entry that does not exist (20_memory.md R61, R63, log entry 29). -/
def Obligations.ValuesOutsideTheRulesRunOrStop : Prop :=
  ∀ s : State,
    (∀ x y : Reading, s.cfg.period ≤ x.toNat ∨ s.cfg.period ≤ y.toNat →
      (∃ cx cy : BitVec 8,
        exec (.mapToDisplay x y) s = .next { s with fnResult := some (.cursor cx cy), freeCount := s.freeCount + 1 } ∧
        (x.toNat < s.cfg.period → (cx.toNat : Int) = max 4 (min 116 (((x.toNat * 128 / s.cfg.period : Nat) : Int) - 4))) ∧
        (y.toNat < s.cfg.period → (cy.toNat : Int) = max 4 (min 52 (((y.toNat * 64 / s.cfg.period : Nat) : Int) - 4)))) ∧
      (∃ row col : BitVec 4,
        exec (.mapToMatrix x y) s = .next { s with fnResult := some (.cell row col), freeCount := s.freeCount + 1 } ∧
        (y.toNat < s.cfg.period → s.cfg.rowVariant = .double →
          row.toInt = 4 - (((s.cfg.period - y.toNat) * 5 / s.cfg.period : Nat) : Int)) ∧
        (y.toNat < s.cfg.period → s.cfg.rowVariant = .single → row.toInt = 4 - ((y.toNat * 5 / s.cfg.period : Nat) : Int)) ∧
        (x.toNat < s.cfg.period → col.toNat = x.toNat * 5 / s.cfg.period))) ∧
    (s.held = false → s.cfg.period ≤ s.rdX.toNat ∨ s.cfg.period ≤ s.rdY.toNat →
      (∃ cx cy : BitVec 8,
        exec .phMapd s = .next { s with curX := cx, curY := cy, ph := 4#4, freeCount := s.freeCount + 1 } ∧
        (s.rdX.toNat < s.cfg.period → (cx.toNat : Int) = max 4 (min 116 (((s.rdX.toNat * 128 / s.cfg.period : Nat) : Int) - 4))) ∧
        (s.rdY.toNat < s.cfg.period → (cy.toNat : Int) = max 4 (min 52 (((s.rdY.toNat * 64 / s.cfg.period : Nat) : Int) - 4)))) ∧
      (∃ row col : BitVec 4,
        exec .phMapm s = .next { s with cellRow := row, cellCol := col, ph := 5#4, freeCount := s.freeCount + 1 } ∧
        (s.rdY.toNat < s.cfg.period → s.cfg.rowVariant = .double →
          row.toInt = 4 - (((s.cfg.period - s.rdY.toNat) * 5 / s.cfg.period : Nat) : Int)) ∧
        (s.rdY.toNat < s.cfg.period → s.cfg.rowVariant = .single →
          row.toInt = 4 - ((s.rdY.toNat * 5 / s.cfg.period : Nat) : Int)) ∧
        (s.rdX.toNat < s.cfg.period → col.toNat = s.rdX.toNat * 5 / s.cfg.period))) ∧
    (s.held = false → s.dl ≤ s.T → s.cyc = 0#32 → ∃ c : BitVec 32, exec .mLow s = .next
      { s with cyc := c, buzz := true, dl := s.T + s.half.toNat, ms := 2#3, freeCount := s.freeCount + 1,
               out := s.out ++ (if s.buzz then [] else [⟨s.T, .buzz true⟩]) }) ∧
    (s.held = false → s.dl ≤ s.T → s.ni = 255#8 → ∃ n : BitVec 8, exec .mGap s = .next
      { s with ni := n, ms := 1#3, freeCount := s.freeCount + 1 }) ∧
    (s.held = false → s.mel = 0#2 → exec .mFetch s = .refused .reservedMel) ∧
    (s.held = false → ∀ k, melodyOfCode s.mel = some k → melodyLen s.cfg k < s.ni.toNat →
      exec .mFetch s = .refused .noteEntryMissing)

/-! ### The contract functions (30_encoding.md R98) -/

/-- map_to_display and map_to_matrix return their values (R111, R115, R117); no register changes (the result's place is the model's choice,
log entry 13). -/
def Obligations.MappingFunctionsReturnTheirValues : Prop :=
  ∀ (s : State) (x y : Reading), x.toNat < s.cfg.period → y.toNat < s.cfg.period →
    (∃ cx cy : BitVec 8, exec (.mapToDisplay x y) s = .next { s with fnResult := some (.cursor cx cy) } ∧
      (cx.toNat : Int) = max 4 (min 116 (((x.toNat * 128 / s.cfg.period : Nat) : Int) - 4)) ∧
      (cy.toNat : Int) = max 4 (min 52 (((y.toNat * 64 / s.cfg.period : Nat) : Int) - 4))) ∧
    (∃ row col : BitVec 4, exec (.mapToMatrix x y) s = .next { s with fnResult := some (.cell row col) } ∧
      (s.cfg.rowVariant = .double → row.toInt = 4 - (((s.cfg.period - y.toNat) * 5 / s.cfg.period : Nat) : Int)) ∧
      (s.cfg.rowVariant = .single → row.toInt = 4 - ((y.toNat * 5 / s.cfg.period : Nat) : Int)) ∧
      col.toNat = x.toNat * 5 / s.cfg.period)

/-- build_matrix_buffer returns 25 words, the colour at the serpentine index of a valid cell and 0 elsewhere (R130, R133); serp returns the
index of a cell of the grid (R131). The result's place is the model's choice (log entry 13); so is serp outside the grid, where R131 states
no index: it returns a free value (log entry 18) and the count of free values moves on (log entry 28). -/
def Obligations.MatrixFunctionsReturnTheirValues : Prop :=
  (∀ (s : State) (row col : BitVec 4) (colour : Word),
    ∃ ws : List Word, exec (.buildMatrixBuffer row col colour) s = .next { s with fnResult := some (.buffer ws) } ∧
      ws.length = 25 ∧
      ∀ i, i < 25 → ws[i]? = some
        (if (0 ≤ row.toInt ∧ row.toInt < 5 ∧ col.toNat < 5) ∧
            i = 5 * row.toNat + (if row.toNat % 2 = 0 then 4 - col.toNat else col.toNat) then colour else 0#32)) ∧
  (∀ (s : State) (r c : BitVec 4),
    (r.toNat ≤ 4 ∧ c.toNat ≤ 4 → exec (.serp r c) s = .next
      { s with fnResult := some (.index (5 * r.toNat + (if r.toNat % 2 = 0 then 4 - c.toNat else c.toNat))) }) ∧
    (4 < r.toNat ∨ 4 < c.toNat → ∃ index : Nat, exec (.serp r c) s = .next
      { s with fnResult := some (.index index), freeCount := s.freeCount + 1 }))

/-- play(melody k) takes the start action (45_melody_sequencer.md R180, R182; log entry 14). -/
def Obligations.PlayFunctionStartsTheMelody : Prop :=
  ∀ (s : State) (k : MelodyNo) (code : BitVec 2), s.held = false →
    (k = .one ∧ code = 1#2 ∨ k = .two ∧ code = 2#2 ∨ k = .three ∧ code = 3#2) →
    exec (.play k) s = .next
      { s with mel := code, ni := 0#8, ms := 1#3, ph := 12#4, out := s.out ++ [⟨s.T, .melStart k⟩] }

/-! ### Rules of the whole machine -/

/-- "The only thing that changes `T` is the stimulus `ADV`" (10_state.md R21), apart from reset, which sets it to 0. -/
def Obligations.OnlyAdvAndRstChangeTime : Prop :=
  ∀ (i : Instr) (s t : State), exec i s = .next t → i ≠ .rst → (∀ n, i ≠ .adv n) → t.T = s.T

/-- Every register has the writers that the tables of 10_state.md R28, R31 and R32 give it, with RST, and no other; PH_PLAY takes the step of
the note sequencer's state and `play` takes `start_melody`, so they stand beside those. No operation writes the configuration, note ROM
included (20_memory.md R61); `IN_X`, `IN_Y` are JOY's (10_state.md R22); the buffer is PH_MBUF's (20_memory.md R64). A request flag is set
by button B alone (20_memory.md R72). -/
def Obligations.EachRegisterHasItsOwnWriters : Prop :=
  ∀ (i : Instr) (s t : State), exec i s = .next t →
    t.cfg = s.cfg ∧
    ((∀ x y, i ≠ .joy x y) → t.inX = s.inX ∧ t.inY = s.inY) ∧
    (i ∉ [.rst, .phInit] → t.calX = s.calX ∧ t.calY = s.calY) ∧
    (i ∉ [.rst, .phSample] → t.rdX = s.rdX ∧ t.rdY = s.rdY) ∧
    (i ∉ [.rst, .phMapd] → t.curX = s.curX ∧ t.curY = s.curY) ∧
    (i ∉ [.rst, .phMapm] → t.cellRow = s.cellRow ∧ t.cellCol = s.cellCol) ∧
    (i ∉ [.rst, .phDz] → t.movX = s.movX ∧ t.movY = s.movY) ∧
    (i ∉ [.rst, .phMbuf] → t.mbuf = s.mbuf) ∧
    (i ∉ [.rst, .btnA, .btnB] → t.debLast = s.debLast) ∧
    (i ∉ [.rst, .btnA] → t.rgbEn = s.rgbEn) ∧
    (i ∉ [.rst, .btnB] → t.sel = s.sel ∧ t.colSel = s.colSel) ∧
    (i ∉ [.rst, .phRgb] → t.rgbState = s.rgbState ∧ t.rgbLast = s.rgbLast) ∧
    (i ∉ [.rst, .phRgb, .btnA] → t.ledR = s.ledR ∧ t.ledG = s.ledG ∧ t.ledB = s.ledB) ∧
    (i ∉ [.rst, .btnB, .phSvc1, .phPlay, .mFetch] → t.melreq1 = s.melreq1) ∧
    (i ∉ [.rst, .btnB, .phSvc2, .phPlay, .mFetch] → t.melreq2 = s.melreq2) ∧
    (i ∉ [.rst, .btnB, .phSvc3, .phPlay, .mFetch] → t.melreq3 = s.melreq3) ∧
    (i ≠ .btnB → (t.melreq1 = true → s.melreq1 = true) ∧ (t.melreq2 = true → s.melreq2 = true) ∧
      (t.melreq3 = true → s.melreq3 = true)) ∧
    (i ∉ [.rst, .phInit, .phRgb, .phSample, .phMapd, .phMapm, .phDz, .phMbuf, .phMsend, .phDraw, .phSvc1, .phSvc2, .phSvc3,
        .phPlay, .phSleep, .mFetch] → (∀ k, i ≠ .play k) → t.ph = s.ph) ∧
    (i ∉ [.rst, .phSvc3, .phPlay, .mFetch, .mHigh, .mLow, .mRest] → t.dl = s.dl) ∧
    (i ∉ [.rst, .phSvc1, .phSvc2, .phSvc3, .phPlay, .mFetch] → (∀ k, i ≠ .play k) → t.mel = s.mel) ∧
    (i ∉ [.rst, .phSvc1, .phSvc2, .phSvc3, .phPlay, .mFetch, .mGap] → (∀ k, i ≠ .play k) → t.ni = s.ni) ∧
    (i ∉ [.rst, .phSvc1, .phSvc2, .phSvc3, .phPlay, .mFetch, .mHigh, .mLow, .mRest, .mGap] → (∀ k, i ≠ .play k) →
      t.ms = s.ms) ∧
    (i ∉ [.rst, .phPlay, .mFetch, .mLow] → t.cyc = s.cyc) ∧
    (i ∉ [.rst, .phPlay, .mFetch] → t.half = s.half) ∧
    (i ∉ [.rst, .phPlay, .mFetch, .mHigh, .mLow] → t.buzz = s.buzz)

/-- An EDGE step leaves MAIN's control and timing registers, the data registers and the memories alone (60_exceptions.md R245; 20_memory.md R72). -/
def Obligations.EdgeStepsLeaveMainAlone : Prop :=
  ∀ (i : Instr) (s t : State), (i = .btnA ∨ i = .btnB) → exec i s = .next t →
    t.ph = s.ph ∧ t.ms = s.ms ∧ t.dl = s.dl ∧ t.mel = s.mel ∧ t.ni = s.ni ∧ t.cyc = s.cyc ∧ t.half = s.half ∧ t.buzz = s.buzz ∧
    t.T = s.T ∧ t.inX = s.inX ∧ t.inY = s.inY ∧ t.calX = s.calX ∧ t.calY = s.calY ∧ t.rdX = s.rdX ∧ t.rdY = s.rdY ∧
    t.curX = s.curX ∧ t.curY = s.curY ∧ t.cellRow = s.cellRow ∧ t.cellCol = s.cellCol ∧ t.movX = s.movX ∧ t.movY = s.movY ∧
    t.mbuf = s.mbuf ∧ t.rgbState = s.rgbState ∧ t.rgbLast = s.rgbLast ∧ t.cfg = s.cfg ∧ mainEnabled t = mainEnabled s

/-- "With `rgb_en` = 0 no step writes `rgb_state` or `rgb_last`" (43_rgb_cycle.md R153); RST, which resets both, apart. -/
def Obligations.DisabledCycleNeverAdvances : Prop :=
  ∀ (i : Instr) (s t : State), exec i s = .next t → i ≠ .rst → s.rgbEn = false →
    t.rgbState = s.rgbState ∧ t.rgbLast = s.rgbLast

/-- The output history only grows, by events stamped with the current `T` (00_scope.md R14; 10_state.md R27); RST alone empties it. -/
def Obligations.HistoryOnlyGrows : Prop :=
  ∀ (i : Instr) (s t : State), exec i s = .next t → i ≠ .rst →
    ∃ es : List Event, t.out = s.out ++ es ∧ ∀ e ∈ es, e.time = s.T

/-- Nothing reads the deadzone result (41_coordinate_mapper.md R120): states that agree but for the calibration centre and the movement flags step
alike, and go on agreeing. -/
def Obligations.NothingReadsTheDeadzoneResult : Prop :=
  ∀ s u : State, withoutDeadzone s = withoutDeadzone u →
    SameOutcome (fun a b => withoutDeadzone a = withoutDeadzone b) (step s) (step u)

/-! ### Invariants, runs and times -/

/-- The invariant holds right after RST for every legal configuration and every legal pair of input levels. -/
def Obligations.InvariantHoldsAfterReset : Prop :=
  BlockInv State.reset ∧ HistoryInv State.reset ∧
  ∀ (c : Config) (x y : Reading) (tr : List Stimulus), x.toNat < c.period → y.toNat < c.period →
    BlockInv (State.afterRst c x y tr) ∧ HistoryInv (State.afterRst c x y tr)

/-- Every step of the model's step function keeps the invariant. -/
def Obligations.EveryStepKeepsTheInvariant : Prop :=
  ∀ s t : State, BlockInv s → step s = .next t → BlockInv t

/-- Every step of the step relation, of either agent or of the environment at any time, keeps the invariant, and the invariant's
history part. -/
def Obligations.EveryInterleavingKeepsTheInvariant : Prop :=
  ∀ s t : State, BlockInv s → HistoryInv s → Rel s t → BlockInv t ∧ HistoryInv t

/-- The invariants of 10_state.md R39 hold in every state reachable under the step relation; the calibration centre changes only in PH_INIT and by
reset (R39 e). -/
def Obligations.ReachableStatesKeepTheRegisterInvariants : Prop :=
  ∀ (c : Config) (x y : Reading), x.toNat < c.period → y.toNat < c.period →
    ∀ s, Reachable (State.afterRst c x y []) s →
      RegInv s ∧ s.mel.toNat ≤ 3 ∧
      ∀ t, Rel s t → s.ph ≠ 0#4 → (t.calX = s.calX ∧ t.calY = s.calY) ∨ exec .rst s = .next t

/-- The step function is an execution of the step relation: every step is one of the relation's, or changes only the model's own
bookkeeping of the environment. -/
def Obligations.StepRefinesTheStepRelation : Prop :=
  ∀ s t : State, (s.held = true → s.adv = 0) → step s = .next t → bare t = bare s ∨ Rel (bare s) (bare t)

/-- No step of MAIN can fault, trap or stop (60_exceptions.md R240; 46_main_sequencer.md R224): whenever MAIN is enabled in a state that keeps the
invariant, its step answers a next state. -/
def Obligations.MainNeverStops : Prop :=
  ∀ s : State, BlockInv s → mainEnabled s = true → ∃ t, mainStep s = .next t

/-- The order of the phases, whole (46_main_sequencer.md R212): the successor of every phase; the only choices are the flag test of a service slot
and the end of a melody, whose return point is a function of `mel` alone. -/
def Obligations.PhasesFollowOneAnotherInOrder : Prop :=
  ∀ s t : State, BlockInv s → mainEnabled s = true → mainStep s = .next t →
    (s.ph.toNat ≤ 8 → t.ph.toNat = s.ph.toNat + 1) ∧
    (s.ph = 9#4 → t.ph = if s.melreq1 then 12#4 else 10#4) ∧
    (s.ph = 10#4 → t.ph = if s.melreq2 then 12#4 else 11#4) ∧
    (s.ph = 11#4 → t.ph = if s.melreq3 then 12#4 else 13#4) ∧
    (s.ph = 12#4 → t.ph = 12#4 ∨ (s.mel = 1#2 ∧ t.ph = 10#4) ∨ (s.mel = 2#2 ∧ t.ph = 11#4) ∨ (s.mel = 3#2 ∧ t.ph = 13#4)) ∧
    (s.ph = 13#4 → t.ph = 1#4)

/-- MAIN always reaches quiescence after finitely many steps, without time passing (46_main_sequencer.md R206): at most 20. -/
def Obligations.QuiescenceWithinTwentySteps : Prop :=
  ∀ s : State, BlockInv s → s.held = false → s.trace = [] →
    ∃ k t, k ≤ 20 ∧ runSteps k s = .next t ∧ mainEnabled t = false ∧ t.T = s.T

/-- A tick in which no melody is serviced (46_main_sequencer.md R212, R220): eleven steps at one value of `T` from PH_RGB into the sleep, with one
MX and one DRAW event, and the next tick begins exactly 50 000 us later. -/
def Obligations.TickTakesFiftyMilliseconds : Prop :=
  ∀ s : State, BlockInv s → s.held = false → s.trace = [] → s.ph = 1#4 →
    s.melreq1 = false → s.melreq2 = false → s.melreq3 = false →
    (∃ t leds words, runSteps 11 s = .next t ∧ t.T = s.T ∧ t.ph = 13#4 ∧ t.dl = s.T + 50000 ∧
      t.rdX = s.inX ∧ t.rdY = s.inY ∧ leds.length ≤ 1 ∧
      t.out = s.out ++ leds ++ [⟨s.T, .mx words⟩, ⟨s.T, .draw t.curX t.curY⟩]) ∧
    (50000 ≤ s.adv → ∃ t, runSteps 13 s = .next t ∧ t.T = s.T + 50000 ∧ t.adv = s.adv - 50000 ∧ t.ph = 1#4)

/-- The time taken by one entry (45_melody_sequencer.md R191): `2 * half * cyc + 20000` for a tone, `1000 * d + 20000` for a rest; meanwhile
MAIN samples, maps, sends and cycles nothing (R193). -/
def Obligations.EntryTakesItsStatedTime : Prop :=
  ∀ (s : State) (k : MelodyNo) (w : Word), BlockInv s → s.held = false → s.trace = [] → s.ph = 12#4 → s.ms = 1#3 →
    melodyOfCode s.mel = some k → s.ni.toNat < melodyLen s.cfg k → noteRead s.cfg k s.ni.toNat = some w →
    ∀ f d time : Nat, f = w.toNat / 65536 → d = w.toNat % 65536 →
      time = (if f = 0 then 1000 * d + 20000 else 2 * (500000 / f) * (f * d / 1000) + 20000) →
      time ≤ s.adv →
      ∃ n t, runSteps n s = .next t ∧ t.T = s.T + time ∧ t.adv = s.adv - time ∧ t.ph = 12#4 ∧ t.ms = 1#3 ∧ t.mel = s.mel ∧
        t.ni.toNat = s.ni.toNat + 1 ∧ t.buzz = false ∧ t.rdX = s.rdX ∧ t.rdY = s.rdY ∧ t.curX = s.curX ∧ t.curY = s.curY ∧
        t.mbuf = s.mbuf ∧ t.rgbState = s.rgbState ∧ t.rgbLast = s.rgbLast ∧ t.ledR = s.ledR ∧ t.ledG = s.ledG ∧ t.ledB = s.ledB

/-- The time taken by a melody is the sum over its entries, and 0 if it has none (R191); then MAIN goes on after the slot that started
it (R185), and nothing but the note sequencer has stepped. -/
def Obligations.MelodyTakesTheSumOfItsEntries : Prop :=
  ∀ (s : State) (k : MelodyNo) (time : Nat), BlockInv s → s.held = false → s.trace = [] → s.ph = 12#4 → s.ms = 1#3 → s.ni = 0#8 →
    melodyOfCode s.mel = some k →
    time = ((melodyWords s.cfg k).map (fun w =>
      if w.toNat / 65536 = 0 then 1000 * (w.toNat % 65536) + 20000
      else 2 * (500000 / (w.toNat / 65536)) * (w.toNat / 65536 * (w.toNat % 65536) / 1000) + 20000)).sum →
    time ≤ s.adv →
    ∃ n t, runSteps n s = .next t ∧ t.T = s.T + time ∧ t.adv = s.adv - time ∧ t.mel = 0#2 ∧ t.ms = 0#3 ∧ t.buzz = false ∧
      (k = .one → t.ph = 10#4) ∧ (k = .two → t.ph = 11#4) ∧ (k = .three → t.ph = 13#4 ∧ t.dl = t.T + 50000) ∧
      t.out.getLast? = some ⟨t.T, .melEnd k⟩ ∧ t.mbuf = s.mbuf ∧ t.rgbState = s.rgbState ∧ t.rgbLast = s.rgbLast

/-- During a melody control stays in PH_PLAY until its end action (R193): no MAIN step leaves PH_PLAY but the fetch that finds `ni` = LEN. -/
def Obligations.MelodyIsNotCutShort : Prop :=
  ∀ s t : State, BlockInv s → s.ph = 12#4 → mainEnabled s = true → mainStep s = .next t →
    t.ph = 12#4 ∨ ∃ k, melodyOfCode s.mel = some k ∧ s.ms = 1#3 ∧ s.ni.toNat = melodyLen s.cfg k ∧
      t.out = s.out ++ [⟨s.T, .melEnd k⟩]
end

