-- ==== Sys2Proof/Laws/Config.lean ====
section
/-! SUPPORT. The ranges of the configuration's values (00_scope.md R8), and the lookups that rest on them. -/

namespace Sys2Proof.Machine

/-- A parameter to which R8 gives one value has it. -/
@[simp] theorem fixed_val {α : Type} {v : α} (x : Fixed v) : x.val = v := x.property

theorem period_ge (c : Config) : 5 ≤ c.period := c.legalPeriod.property.1

theorem period_le (c : Config) : c.period ≤ 16384 := c.legalPeriod.property.2

theorem melodyLen_le (c : Config) (k : MelodyNo) : melodyLen c k ≤ 255 := by
  cases k
  · exact c.legalMel1.property
  · exact c.legalMel2.property
  · exact c.legalMel3.property

/-- A selected colour is not 0. -/
theorem selectedColour_ne_zero {c : Config} {v : BitVec 2} {w : Word} (h : selectedColour c v = some w) : w ≠ 0#32 := by
  have key : ∀ l : LegalColour, l.val ≠ 0#32 := fun l => by simpa using l.property
  unfold selectedColour at h
  split at h
  · cases h; exact key c.legalColour1
  · cases h; exact key c.legalColour2
  · cases h; exact key c.legalColour3
  · cases h

/-- The physical layout of the note ROM holds the same words (20_memory.md R62): melody `k` begins at its base. -/
theorem noteRom_layout (c : Config) (k : MelodyNo) {i : Nat} (h : i < melodyLen c k) :
    (noteRom c)[noteBase c k + i]? = noteRead c k i := by
  cases k <;> simp only [melodyLen, melodyWords] at h <;>
    simp only [noteRom, noteRead, noteBase, melodyLen, melodyWords]
  · rw [Nat.zero_add, List.getElem?_append_left (by simp; omega), List.getElem?_append_left h]
  · rw [List.getElem?_append_left (by simp; omega), List.getElem?_append_right (by omega), Nat.add_sub_cancel_left]
  · rw [List.getElem?_append_right (by simp), List.length_append, Nat.add_sub_cancel_left]

end Sys2Proof.Machine
end

