-- ==== Sys2Proof/Laws/Decode.lean ====
section
/-! SUPPORT. The fields of a stimulus word: what each field of a word built from parts is, and how a word is its fields again. -/

namespace Sys2Proof

/-- A word of two parts, as a number. -/
theorem append_toNat {m n : Nat} (x : BitVec m) (y : BitVec n) : (x ++ y).toNat = x.toNat * 2 ^ n + y.toNat := by
  rw [BitVec.toNat_append, ← Nat.shiftLeft_add_eq_or_of_lt y.isLt, Nat.shiftLeft_eq]

theorem stimOpc_toNat (w : Word) : (stimOpc w).toNat = w.toNat / 2 ^ 28 := by
  have := w.isLt
  simp only [stimOpc, BitVec.extractLsb'_toNat, Nat.shiftRight_eq_div_pow]
  omega

theorem stimArg_toNat (w : Word) : (stimArg w).toNat = w.toNat % 2 ^ 28 := by
  simp [stimArg, BitVec.extractLsb'_toNat]

theorem joyX_toNat (w : Word) : (joyX w).toNat = w.toNat / 2 ^ 14 % 2 ^ 14 := by
  simp [joyX, BitVec.extractLsb'_toNat, Nat.shiftRight_eq_div_pow]

theorem joyY_toNat (w : Word) : (joyY w).toNat = w.toNat % 2 ^ 14 := by
  simp [joyY, BitVec.extractLsb'_toNat]

/-- A stimulus word is its opcode and its argument (30_encoding.md R81). -/
theorem stim_fields (w : Word) : stimOpc w ++ stimArg w = w := by
  apply BitVec.eq_of_toNat_eq
  rw [append_toNat, stimOpc_toNat, stimArg_toNat]
  omega

@[simp] theorem stimOpc_append (c : BitVec 4) (n : BitVec 28) : stimOpc (c ++ n) = c := by
  have h1 := c.isLt
  have h2 := n.isLt
  apply BitVec.eq_of_toNat_eq
  rw [stimOpc_toNat, append_toNat]
  omega

@[simp] theorem stimArg_append (c : BitVec 4) (n : BitVec 28) : stimArg (c ++ n) = n := by
  have h2 := n.isLt
  apply BitVec.eq_of_toNat_eq
  rw [stimArg_toNat, append_toNat]
  omega

/-- The fields of a JOY word (30_encoding.md R85). -/
theorem joy_fields (c : BitVec 4) (x y : Reading) :
    stimOpc (c ++ x ++ y) = c ∧ joyX (c ++ x ++ y) = x ∧ joyY (c ++ x ++ y) = y := by
  have h1 := c.isLt
  have h2 := x.isLt
  have h3 := y.isLt
  refine ⟨?_, ?_, ?_⟩ <;> apply BitVec.eq_of_toNat_eq
  · rw [stimOpc_toNat, append_toNat, append_toNat]; omega
  · rw [joyX_toNat, append_toNat, append_toNat]; omega
  · rw [joyY_toNat, append_toNat, append_toNat]; omega

/-- What the stimulus decoder accepts: a stimulus and nothing else. -/
theorem decodeStim_cases {w : Word} {i : Instr} (h : decodeStim w = .ok i) :
    i = .rst ∨ (∃ n, i = .adv n) ∨ i = .btnA ∨ i = .btnB ∨ ∃ x y, i = .joy x y := by
  unfold decodeStim at h
  split at h
  · split at h
    · cases h; exact .inl rfl
    · cases h
  · split at h
    · cases h; exact .inr (.inl ⟨_, rfl⟩)
    · split at h
      · split at h
        · cases h; simp
        · split at h
          · cases h; simp
          · cases h
      · split at h
        · cases h; simp
        · cases h

/-- What the phase decoder accepts is neither RST nor ADV. -/
theorem decodePhase_cases {c : BitVec 4} {i : Instr} (h : decodePhase c = .ok i) : i ≠ .rst ∧ ∀ n, i ≠ .adv n := by
  revert h; unfold decodePhase; split <;> rintro ⟨⟩ <;> simp

end Sys2Proof
end

