-- ==== Sys2Proof/Laws/Memory.lean ====
section
/-! SUPPORT. The matrix buffer: read after write, the canonical form is kept by every memory operation, and what a built
buffer holds (20_memory.md R64, R65; 42_matrix_addressing.md R133). -/

namespace Sys2Proof.Machine

@[simp] theorem memRead_nil (i : Nat) : memRead [] i = 0#32 := rfl

/-- Cells from a bound on hold nothing below it. -/
theorem memRead_below {lo : Nat} {m : Memory} (h : memWfFrom lo m = true) {i : Nat} (hi : i < lo) :
    memRead m i = 0#32 := by
  induction m generalizing lo with
  | nil => rfl
  | cons c m ih =>
    obtain ⟨a, v⟩ := c
    simp only [memWfFrom, Bool.and_eq_true, decide_eq_true_eq] at h
    have ha : a ≠ i := by omega
    simp only [memRead, if_neg ha]
    exact ih h.2 (by omega)

theorem memWfFrom_mono {lo lo' : Nat} {m : Memory} (h : memWfFrom lo m = true) (hl : lo' ≤ lo) :
    memWfFrom lo' m = true := by
  cases m with
  | nil => rfl
  | cons c m =>
    simp only [memWfFrom, Bool.and_eq_true, decide_eq_true_eq] at h ⊢
    exact ⟨⟨⟨by omega, h.1.1.2⟩, h.1.2⟩, h.2⟩

/-- A write reads back, and leaves every other word alone. -/
theorem memRead_memWrite {lo : Nat} {m : Memory} (h : memWfFrom lo m = true) (i j : Nat) (v : Word) :
    memRead (memWrite m i v) j = if j = i then v else memRead m j := by
  induction m generalizing lo with
  | nil =>
    by_cases hv : v = 0#32 <;> simp [memWrite, memRead, hv, eq_comm]
  | cons c m ih =>
    obtain ⟨a, w⟩ := c
    have h' := h
    simp only [memWfFrom, Bool.and_eq_true, decide_eq_true_eq] at h'
    obtain ⟨⟨⟨_, _⟩, _⟩, htail⟩ := h'
    by_cases hlt : i < a
    · by_cases hv : v = 0#32
      · simp only [memWrite, if_pos hlt, if_pos hv]
        by_cases hji : j = i
        · rw [if_pos hji, hv, hji, memRead, if_neg (by omega)]
          exact memRead_below htail (by omega)
        · rw [if_neg hji]
      · simp only [memWrite, if_pos hlt, if_neg hv, memRead]
        by_cases hji : j = i
        · simp [hji]
        · simp [hji, Ne.symm hji]
    · by_cases hia : i = a
      · subst hia
        by_cases hv : v = 0#32
        · simp only [memWrite, if_pos hv, memRead]
          by_cases hji : j = i
          · subst hji; simpa [hv] using memRead_below htail (by omega)
          · simp [hji, Ne.symm hji]
        · have hw : memWrite ((i, w) :: m) i v = (i, v) :: m := by simp [memWrite, hv]
          rw [hw]
          by_cases hji : j = i
          · simp [memRead, hji]
          · simp [memRead, hji, Ne.symm hji]
      · simp only [memWrite, if_neg hlt, if_neg hia, memRead]
        by_cases haj : a = j
        · simp [haj, show j ≠ i by omega]
        · simp only [if_neg haj]; exact ih htail

/-- A write inside the buffer keeps the canonical form. -/
theorem memWfFrom_memWrite {lo : Nat} {m : Memory} (h : memWfFrom lo m = true) {i : Nat} (hlo : lo ≤ i)
    (hi : i < mbufWords) (v : Word) : memWfFrom lo (memWrite m i v) = true := by
  induction m generalizing lo with
  | nil =>
    by_cases hv : v = 0#32
    · simp [memWrite, hv, memWfFrom]
    · simp [memWrite, hv, memWfFrom, hlo, hi]
  | cons c m ih =>
    obtain ⟨a, w⟩ := c
    have h' := h
    simp only [memWfFrom, Bool.and_eq_true, decide_eq_true_eq] at h'
    obtain ⟨⟨⟨hla, ha⟩, hw⟩, htail⟩ := h'
    by_cases hlt : i < a
    · by_cases hv : v = 0#32
      · simpa [memWrite, hlt, hv] using h
      · simp only [memWrite, if_pos hlt, if_neg hv, memWfFrom, Bool.and_eq_true, decide_eq_true_eq]
        exact ⟨⟨⟨hlo, hi⟩, hv⟩, ⟨⟨⟨by omega, ha⟩, hw⟩, htail⟩⟩
    · by_cases hia : i = a
      · subst hia
        by_cases hv : v = 0#32
        · simpa [memWrite, hv] using memWfFrom_mono htail (by omega)
        · simp [memWrite, hv, memWfFrom, hlo, hi, htail]
      · simp only [memWrite, if_neg hlt, if_neg hia, memWfFrom, Bool.and_eq_true, decide_eq_true_eq]
        exact ⟨⟨⟨hla, ha⟩, hw⟩, ih htail (by omega)⟩

theorem memWrite_wf {m : Memory} (h : Memory.wf m = true) {i : Nat} (hi : i < mbufWords) (v : Word) :
    Memory.wf (memWrite m i v) = true := memWfFrom_memWrite h (Nat.zero_le _) hi v

theorem memClear_wf {m : Memory} (h : Memory.wf m = true) {n : Nat} (hn : n ≤ mbufWords) :
    Memory.wf (memClear n m) = true := by
  induction n with
  | zero => exact h
  | succ n ih => exact memWrite_wf (ih (by omega)) (by omega) _

theorem memRead_memClear {m : Memory} (h : Memory.wf m = true) {n : Nat} (hn : n ≤ mbufWords) (i : Nat) :
    memRead (memClear n m) i = if i < n then 0#32 else memRead m i := by
  induction n with
  | zero => simp [memClear]
  | succ n ih =>
    rw [memClear, memRead_memWrite (memClear_wf h (by omega)), ih (by omega)]
    by_cases hi : i = n
    · simp [hi]
    · by_cases hlt : i < n
      · simp [hi, hlt, show i < n + 1 by omega]
      · simp [hi, hlt, show ¬ i < n + 1 by omega]

/-- Canonical buffers that read alike are the same buffer. -/
theorem memory_ext {lo : Nat} {m n : Memory} (hm : memWfFrom lo m = true) (hn : memWfFrom lo n = true)
    (h : ∀ i, memRead m i = memRead n i) : m = n := by
  induction m generalizing lo n with
  | nil =>
    cases n with
    | nil => rfl
    | cons c n =>
      obtain ⟨a, v⟩ := c
      simp only [memWfFrom, Bool.and_eq_true, decide_eq_true_eq] at hn
      exact absurd (by simpa [memRead] using (h a).symm) hn.1.2
  | cons c m ih =>
    obtain ⟨a, v⟩ := c
    have hm' := hm
    simp only [memWfFrom, Bool.and_eq_true, decide_eq_true_eq] at hm'
    cases n with
    | nil => exact absurd (by simpa [memRead] using h a) hm'.1.2
    | cons d n =>
      obtain ⟨b, w⟩ := d
      have hn' := hn
      simp only [memWfFrom, Bool.and_eq_true, decide_eq_true_eq] at hn'
      have hab : a = b := by
        rcases Nat.lt_trichotomy a b with hlt | heq | hgt
        · have := h a
          rw [memRead, if_pos rfl, memRead, if_neg (by omega), memRead_below hn'.2 (by omega)] at this
          exact absurd this hm'.1.2
        · exact heq
        · have := h b
          rw [memRead, if_neg (by omega), memRead_below hm'.2 (by omega), memRead, if_pos rfl] at this
          exact absurd this.symm hn'.1.2
      subst hab
      have hvw : v = w := by simpa [memRead] using h a
      subst hvw
      have htail : m = n := ih hm'.2 hn'.2 (fun i => by
        by_cases hi : a = i
        · subst hi; rw [memRead_below hm'.2 (by omega), memRead_below hn'.2 (by omega)]
        · simpa [memRead, hi] using h i)
      rw [htail]

/-- No word past the buffer's 25. -/
theorem memRead_above {lo : Nat} {m : Memory} (h : memWfFrom lo m = true) {i : Nat} (hi : mbufWords ≤ i) :
    memRead m i = 0#32 := by
  induction m generalizing lo with
  | nil => rfl
  | cons c m ih =>
    obtain ⟨a, v⟩ := c
    simp only [memWfFrom, Bool.and_eq_true, decide_eq_true_eq] at h
    rw [memRead, if_neg (by omega)]
    exact ih h.2

/-- Clearing all 25 words leaves the empty list: the loop of R133 and "rebuilt from nothing" are the same. -/
theorem memClear_all {m : Memory} (h : Memory.wf m = true) {n : Nat} (hn : n = mbufWords) : memClear n m = [] := by
  have hle : n ≤ mbufWords := Nat.le_of_eq hn
  have hwf : memWfFrom 0 (memClear n m) = true := memClear_wf h hle
  refine memory_ext hwf (n := []) rfl (fun i => ?_)
  rw [memRead_memClear h hle, memRead_nil]
  split
  · rfl
  · exact memRead_above (lo := 0) h (by omega)

/-! ### What a built buffer holds -/

/-- A valid cell's row and column as numbers. -/
theorem cellValid_bounds {c : Config} {row col : BitVec 4} (h : cellValid c row col = true) : row.toNat < 5 ∧ col.toNat < 5 := by
  simp only [cellValid, fixed_val, Bool.and_eq_true, decide_eq_true_eq, BitVec.toInt_eq_toNat_cond] at h
  have := row.isLt
  obtain ⟨⟨h1, h2⟩, h3⟩ := h
  constructor
  · split at h1 <;> omega
  · exact h3

theorem serpIndex_lt {r c : Nat} (hr : r < 5) (hc : c < 5) : serpIndex r c < mbufWords := by
  have : mbufWords = 25 := rfl
  unfold serpIndex; split <;> omega

theorem buildMatrixBuffer_wf (c : Config) (row col : BitVec 4) (colour : Word) :
    Memory.wf (buildMatrixBuffer c row col colour) = true := by
  unfold buildMatrixBuffer
  split
  · rename_i h
    exact memWrite_wf rfl (serpIndex_lt (cellValid_bounds h).1 (cellValid_bounds h).2) _
  · rfl

theorem buildMatrixBuffer_length (c : Config) (row col : BitVec 4) (colour : Word) :
    (buildMatrixBuffer c row col colour).length ≤ 1 := by
  unfold buildMatrixBuffer
  split
  · by_cases h : colour = 0#32 <;> simp [memWrite, h]
  · simp

theorem memRead_buildMatrixBuffer (c : Config) (row col : BitVec 4) (colour : Word) (i : Nat) :
    memRead (buildMatrixBuffer c row col colour) i =
      if cellValid c row col = true ∧ i = serpIndex row.toNat col.toNat then colour else 0#32 := by
  unfold buildMatrixBuffer
  by_cases h : cellValid c row col = true
  · simp [h, memRead_memWrite (lo := 0) (m := []) rfl]
  · simp [h]

/-- The buffer right after reset has the canonical form. -/
theorem reset_mbuf_wf : Memory.wf State.reset.mbuf = true := rfl

end Sys2Proof.Machine
end

