-- ==== Sys2Proof/Laws/State.lean ====
section
/-! SUPPORT. One lemma per field per state update, each true by rfl, so that no later proof unfolds a record update. -/

namespace Sys2Proof.Machine

variable (s : State)

/-! ### emit -/

@[simp] theorem emit_cfg (k : EventKind) : (emit s k).cfg = s.cfg := rfl
@[simp] theorem emit_held (k : EventKind) : (emit s k).held = s.held := rfl
@[simp] theorem emit_T (k : EventKind) : (emit s k).T = s.T := rfl
@[simp] theorem emit_inX (k : EventKind) : (emit s k).inX = s.inX := rfl
@[simp] theorem emit_inY (k : EventKind) : (emit s k).inY = s.inY := rfl
@[simp] theorem emit_calX (k : EventKind) : (emit s k).calX = s.calX := rfl
@[simp] theorem emit_calY (k : EventKind) : (emit s k).calY = s.calY := rfl
@[simp] theorem emit_rdX (k : EventKind) : (emit s k).rdX = s.rdX := rfl
@[simp] theorem emit_rdY (k : EventKind) : (emit s k).rdY = s.rdY := rfl
@[simp] theorem emit_curX (k : EventKind) : (emit s k).curX = s.curX := rfl
@[simp] theorem emit_curY (k : EventKind) : (emit s k).curY = s.curY := rfl
@[simp] theorem emit_cellRow (k : EventKind) : (emit s k).cellRow = s.cellRow := rfl
@[simp] theorem emit_cellCol (k : EventKind) : (emit s k).cellCol = s.cellCol := rfl
@[simp] theorem emit_movX (k : EventKind) : (emit s k).movX = s.movX := rfl
@[simp] theorem emit_movY (k : EventKind) : (emit s k).movY = s.movY := rfl
@[simp] theorem emit_debLast (k : EventKind) : (emit s k).debLast = s.debLast := rfl
@[simp] theorem emit_rgbEn (k : EventKind) : (emit s k).rgbEn = s.rgbEn := rfl
@[simp] theorem emit_sel (k : EventKind) : (emit s k).sel = s.sel := rfl
@[simp] theorem emit_colSel (k : EventKind) : (emit s k).colSel = s.colSel := rfl
@[simp] theorem emit_melreq1 (k : EventKind) : (emit s k).melreq1 = s.melreq1 := rfl
@[simp] theorem emit_melreq2 (k : EventKind) : (emit s k).melreq2 = s.melreq2 := rfl
@[simp] theorem emit_melreq3 (k : EventKind) : (emit s k).melreq3 = s.melreq3 := rfl
@[simp] theorem emit_rgbState (k : EventKind) : (emit s k).rgbState = s.rgbState := rfl
@[simp] theorem emit_rgbLast (k : EventKind) : (emit s k).rgbLast = s.rgbLast := rfl
@[simp] theorem emit_ledR (k : EventKind) : (emit s k).ledR = s.ledR := rfl
@[simp] theorem emit_ledG (k : EventKind) : (emit s k).ledG = s.ledG := rfl
@[simp] theorem emit_ledB (k : EventKind) : (emit s k).ledB = s.ledB := rfl
@[simp] theorem emit_ph (k : EventKind) : (emit s k).ph = s.ph := rfl
@[simp] theorem emit_dl (k : EventKind) : (emit s k).dl = s.dl := rfl
@[simp] theorem emit_mel (k : EventKind) : (emit s k).mel = s.mel := rfl
@[simp] theorem emit_ni (k : EventKind) : (emit s k).ni = s.ni := rfl
@[simp] theorem emit_ms (k : EventKind) : (emit s k).ms = s.ms := rfl
@[simp] theorem emit_cyc (k : EventKind) : (emit s k).cyc = s.cyc := rfl
@[simp] theorem emit_half (k : EventKind) : (emit s k).half = s.half := rfl
@[simp] theorem emit_buzz (k : EventKind) : (emit s k).buzz = s.buzz := rfl
@[simp] theorem emit_mbuf (k : EventKind) : (emit s k).mbuf = s.mbuf := rfl
@[simp] theorem emit_out (k : EventKind) : (emit s k).out = s.out ++ [⟨s.T, k⟩] := rfl
@[simp] theorem emit_adv (k : EventKind) : (emit s k).adv = s.adv := rfl
@[simp] theorem emit_trace (k : EventKind) : (emit s k).trace = s.trace := rfl
@[simp] theorem emit_fnResult (k : EventKind) : (emit s k).fnResult = s.fnResult := rfl
@[simp] theorem emit_freeCount (k : EventKind) : (emit s k).freeCount = s.freeCount := rfl

/-! ### setLeds -/

@[simp] theorem setLeds_cfg (red green blue : Bool) : (setLeds s red green blue).cfg = s.cfg := rfl
@[simp] theorem setLeds_held (red green blue : Bool) : (setLeds s red green blue).held = s.held := rfl
@[simp] theorem setLeds_T (red green blue : Bool) : (setLeds s red green blue).T = s.T := rfl
@[simp] theorem setLeds_inX (red green blue : Bool) : (setLeds s red green blue).inX = s.inX := rfl
@[simp] theorem setLeds_inY (red green blue : Bool) : (setLeds s red green blue).inY = s.inY := rfl
@[simp] theorem setLeds_calX (red green blue : Bool) : (setLeds s red green blue).calX = s.calX := rfl
@[simp] theorem setLeds_calY (red green blue : Bool) : (setLeds s red green blue).calY = s.calY := rfl
@[simp] theorem setLeds_rdX (red green blue : Bool) : (setLeds s red green blue).rdX = s.rdX := rfl
@[simp] theorem setLeds_rdY (red green blue : Bool) : (setLeds s red green blue).rdY = s.rdY := rfl
@[simp] theorem setLeds_curX (red green blue : Bool) : (setLeds s red green blue).curX = s.curX := rfl
@[simp] theorem setLeds_curY (red green blue : Bool) : (setLeds s red green blue).curY = s.curY := rfl
@[simp] theorem setLeds_cellRow (red green blue : Bool) : (setLeds s red green blue).cellRow = s.cellRow := rfl
@[simp] theorem setLeds_cellCol (red green blue : Bool) : (setLeds s red green blue).cellCol = s.cellCol := rfl
@[simp] theorem setLeds_movX (red green blue : Bool) : (setLeds s red green blue).movX = s.movX := rfl
@[simp] theorem setLeds_movY (red green blue : Bool) : (setLeds s red green blue).movY = s.movY := rfl
@[simp] theorem setLeds_debLast (red green blue : Bool) : (setLeds s red green blue).debLast = s.debLast := rfl
@[simp] theorem setLeds_rgbEn (red green blue : Bool) : (setLeds s red green blue).rgbEn = s.rgbEn := rfl
@[simp] theorem setLeds_sel (red green blue : Bool) : (setLeds s red green blue).sel = s.sel := rfl
@[simp] theorem setLeds_colSel (red green blue : Bool) : (setLeds s red green blue).colSel = s.colSel := rfl
@[simp] theorem setLeds_melreq1 (red green blue : Bool) : (setLeds s red green blue).melreq1 = s.melreq1 := rfl
@[simp] theorem setLeds_melreq2 (red green blue : Bool) : (setLeds s red green blue).melreq2 = s.melreq2 := rfl
@[simp] theorem setLeds_melreq3 (red green blue : Bool) : (setLeds s red green blue).melreq3 = s.melreq3 := rfl
@[simp] theorem setLeds_rgbState (red green blue : Bool) : (setLeds s red green blue).rgbState = s.rgbState := rfl
@[simp] theorem setLeds_rgbLast (red green blue : Bool) : (setLeds s red green blue).rgbLast = s.rgbLast := rfl
@[simp] theorem setLeds_ledR (red green blue : Bool) : (setLeds s red green blue).ledR = red := rfl
@[simp] theorem setLeds_ledG (red green blue : Bool) : (setLeds s red green blue).ledG = green := rfl
@[simp] theorem setLeds_ledB (red green blue : Bool) : (setLeds s red green blue).ledB = blue := rfl
@[simp] theorem setLeds_ph (red green blue : Bool) : (setLeds s red green blue).ph = s.ph := rfl
@[simp] theorem setLeds_dl (red green blue : Bool) : (setLeds s red green blue).dl = s.dl := rfl
@[simp] theorem setLeds_mel (red green blue : Bool) : (setLeds s red green blue).mel = s.mel := rfl
@[simp] theorem setLeds_ni (red green blue : Bool) : (setLeds s red green blue).ni = s.ni := rfl
@[simp] theorem setLeds_ms (red green blue : Bool) : (setLeds s red green blue).ms = s.ms := rfl
@[simp] theorem setLeds_cyc (red green blue : Bool) : (setLeds s red green blue).cyc = s.cyc := rfl
@[simp] theorem setLeds_half (red green blue : Bool) : (setLeds s red green blue).half = s.half := rfl
@[simp] theorem setLeds_buzz (red green blue : Bool) : (setLeds s red green blue).buzz = s.buzz := rfl
@[simp] theorem setLeds_mbuf (red green blue : Bool) : (setLeds s red green blue).mbuf = s.mbuf := rfl
@[simp] theorem setLeds_out (red green blue : Bool) : (setLeds s red green blue).out = s.out ++ ledEvents s red green blue := rfl
@[simp] theorem setLeds_adv (red green blue : Bool) : (setLeds s red green blue).adv = s.adv := rfl
@[simp] theorem setLeds_trace (red green blue : Bool) : (setLeds s red green blue).trace = s.trace := rfl
@[simp] theorem setLeds_fnResult (red green blue : Bool) : (setLeds s red green blue).fnResult = s.fnResult := rfl
@[simp] theorem setLeds_freeCount (red green blue : Bool) : (setLeds s red green blue).freeCount = s.freeCount := rfl

/-! ### setBuzz -/

@[simp] theorem setBuzz_cfg (level : Bool) : (setBuzz s level).cfg = s.cfg := rfl
@[simp] theorem setBuzz_held (level : Bool) : (setBuzz s level).held = s.held := rfl
@[simp] theorem setBuzz_T (level : Bool) : (setBuzz s level).T = s.T := rfl
@[simp] theorem setBuzz_inX (level : Bool) : (setBuzz s level).inX = s.inX := rfl
@[simp] theorem setBuzz_inY (level : Bool) : (setBuzz s level).inY = s.inY := rfl
@[simp] theorem setBuzz_calX (level : Bool) : (setBuzz s level).calX = s.calX := rfl
@[simp] theorem setBuzz_calY (level : Bool) : (setBuzz s level).calY = s.calY := rfl
@[simp] theorem setBuzz_rdX (level : Bool) : (setBuzz s level).rdX = s.rdX := rfl
@[simp] theorem setBuzz_rdY (level : Bool) : (setBuzz s level).rdY = s.rdY := rfl
@[simp] theorem setBuzz_curX (level : Bool) : (setBuzz s level).curX = s.curX := rfl
@[simp] theorem setBuzz_curY (level : Bool) : (setBuzz s level).curY = s.curY := rfl
@[simp] theorem setBuzz_cellRow (level : Bool) : (setBuzz s level).cellRow = s.cellRow := rfl
@[simp] theorem setBuzz_cellCol (level : Bool) : (setBuzz s level).cellCol = s.cellCol := rfl
@[simp] theorem setBuzz_movX (level : Bool) : (setBuzz s level).movX = s.movX := rfl
@[simp] theorem setBuzz_movY (level : Bool) : (setBuzz s level).movY = s.movY := rfl
@[simp] theorem setBuzz_debLast (level : Bool) : (setBuzz s level).debLast = s.debLast := rfl
@[simp] theorem setBuzz_rgbEn (level : Bool) : (setBuzz s level).rgbEn = s.rgbEn := rfl
@[simp] theorem setBuzz_sel (level : Bool) : (setBuzz s level).sel = s.sel := rfl
@[simp] theorem setBuzz_colSel (level : Bool) : (setBuzz s level).colSel = s.colSel := rfl
@[simp] theorem setBuzz_melreq1 (level : Bool) : (setBuzz s level).melreq1 = s.melreq1 := rfl
@[simp] theorem setBuzz_melreq2 (level : Bool) : (setBuzz s level).melreq2 = s.melreq2 := rfl
@[simp] theorem setBuzz_melreq3 (level : Bool) : (setBuzz s level).melreq3 = s.melreq3 := rfl
@[simp] theorem setBuzz_rgbState (level : Bool) : (setBuzz s level).rgbState = s.rgbState := rfl
@[simp] theorem setBuzz_rgbLast (level : Bool) : (setBuzz s level).rgbLast = s.rgbLast := rfl
@[simp] theorem setBuzz_ledR (level : Bool) : (setBuzz s level).ledR = s.ledR := rfl
@[simp] theorem setBuzz_ledG (level : Bool) : (setBuzz s level).ledG = s.ledG := rfl
@[simp] theorem setBuzz_ledB (level : Bool) : (setBuzz s level).ledB = s.ledB := rfl
@[simp] theorem setBuzz_ph (level : Bool) : (setBuzz s level).ph = s.ph := rfl
@[simp] theorem setBuzz_dl (level : Bool) : (setBuzz s level).dl = s.dl := rfl
@[simp] theorem setBuzz_mel (level : Bool) : (setBuzz s level).mel = s.mel := rfl
@[simp] theorem setBuzz_ni (level : Bool) : (setBuzz s level).ni = s.ni := rfl
@[simp] theorem setBuzz_ms (level : Bool) : (setBuzz s level).ms = s.ms := rfl
@[simp] theorem setBuzz_cyc (level : Bool) : (setBuzz s level).cyc = s.cyc := rfl
@[simp] theorem setBuzz_half (level : Bool) : (setBuzz s level).half = s.half := rfl
@[simp] theorem setBuzz_buzz (level : Bool) : (setBuzz s level).buzz = level := rfl
@[simp] theorem setBuzz_mbuf (level : Bool) : (setBuzz s level).mbuf = s.mbuf := rfl
@[simp] theorem setBuzz_out (level : Bool) : (setBuzz s level).out = s.out ++ buzzEvents s level := rfl
@[simp] theorem setBuzz_adv (level : Bool) : (setBuzz s level).adv = s.adv := rfl
@[simp] theorem setBuzz_trace (level : Bool) : (setBuzz s level).trace = s.trace := rfl
@[simp] theorem setBuzz_fnResult (level : Bool) : (setBuzz s level).fnResult = s.fnResult := rfl
@[simp] theorem setBuzz_freeCount (level : Bool) : (setBuzz s level).freeCount = s.freeCount := rfl

/-! ### acceptEdge -/

@[simp] theorem acceptEdge_cfg (btn : Button) : (acceptEdge s btn).cfg = s.cfg := rfl
@[simp] theorem acceptEdge_held (btn : Button) : (acceptEdge s btn).held = s.held := rfl
@[simp] theorem acceptEdge_T (btn : Button) : (acceptEdge s btn).T = s.T := rfl
@[simp] theorem acceptEdge_inX (btn : Button) : (acceptEdge s btn).inX = s.inX := rfl
@[simp] theorem acceptEdge_inY (btn : Button) : (acceptEdge s btn).inY = s.inY := rfl
@[simp] theorem acceptEdge_calX (btn : Button) : (acceptEdge s btn).calX = s.calX := rfl
@[simp] theorem acceptEdge_calY (btn : Button) : (acceptEdge s btn).calY = s.calY := rfl
@[simp] theorem acceptEdge_rdX (btn : Button) : (acceptEdge s btn).rdX = s.rdX := rfl
@[simp] theorem acceptEdge_rdY (btn : Button) : (acceptEdge s btn).rdY = s.rdY := rfl
@[simp] theorem acceptEdge_curX (btn : Button) : (acceptEdge s btn).curX = s.curX := rfl
@[simp] theorem acceptEdge_curY (btn : Button) : (acceptEdge s btn).curY = s.curY := rfl
@[simp] theorem acceptEdge_cellRow (btn : Button) : (acceptEdge s btn).cellRow = s.cellRow := rfl
@[simp] theorem acceptEdge_cellCol (btn : Button) : (acceptEdge s btn).cellCol = s.cellCol := rfl
@[simp] theorem acceptEdge_movX (btn : Button) : (acceptEdge s btn).movX = s.movX := rfl
@[simp] theorem acceptEdge_movY (btn : Button) : (acceptEdge s btn).movY = s.movY := rfl
@[simp] theorem acceptEdge_debLast (btn : Button) : (acceptEdge s btn).debLast = s.T := rfl
@[simp] theorem acceptEdge_rgbEn (btn : Button) : (acceptEdge s btn).rgbEn = s.rgbEn := rfl
@[simp] theorem acceptEdge_sel (btn : Button) : (acceptEdge s btn).sel = s.sel := rfl
@[simp] theorem acceptEdge_colSel (btn : Button) : (acceptEdge s btn).colSel = s.colSel := rfl
@[simp] theorem acceptEdge_melreq1 (btn : Button) : (acceptEdge s btn).melreq1 = s.melreq1 := rfl
@[simp] theorem acceptEdge_melreq2 (btn : Button) : (acceptEdge s btn).melreq2 = s.melreq2 := rfl
@[simp] theorem acceptEdge_melreq3 (btn : Button) : (acceptEdge s btn).melreq3 = s.melreq3 := rfl
@[simp] theorem acceptEdge_rgbState (btn : Button) : (acceptEdge s btn).rgbState = s.rgbState := rfl
@[simp] theorem acceptEdge_rgbLast (btn : Button) : (acceptEdge s btn).rgbLast = s.rgbLast := rfl
@[simp] theorem acceptEdge_ledR (btn : Button) : (acceptEdge s btn).ledR = s.ledR := rfl
@[simp] theorem acceptEdge_ledG (btn : Button) : (acceptEdge s btn).ledG = s.ledG := rfl
@[simp] theorem acceptEdge_ledB (btn : Button) : (acceptEdge s btn).ledB = s.ledB := rfl
@[simp] theorem acceptEdge_ph (btn : Button) : (acceptEdge s btn).ph = s.ph := rfl
@[simp] theorem acceptEdge_dl (btn : Button) : (acceptEdge s btn).dl = s.dl := rfl
@[simp] theorem acceptEdge_mel (btn : Button) : (acceptEdge s btn).mel = s.mel := rfl
@[simp] theorem acceptEdge_ni (btn : Button) : (acceptEdge s btn).ni = s.ni := rfl
@[simp] theorem acceptEdge_ms (btn : Button) : (acceptEdge s btn).ms = s.ms := rfl
@[simp] theorem acceptEdge_cyc (btn : Button) : (acceptEdge s btn).cyc = s.cyc := rfl
@[simp] theorem acceptEdge_half (btn : Button) : (acceptEdge s btn).half = s.half := rfl
@[simp] theorem acceptEdge_buzz (btn : Button) : (acceptEdge s btn).buzz = s.buzz := rfl
@[simp] theorem acceptEdge_mbuf (btn : Button) : (acceptEdge s btn).mbuf = s.mbuf := rfl
@[simp] theorem acceptEdge_out (btn : Button) : (acceptEdge s btn).out = s.out ++ [⟨s.T, .acc btn⟩] := rfl
@[simp] theorem acceptEdge_adv (btn : Button) : (acceptEdge s btn).adv = s.adv := rfl
@[simp] theorem acceptEdge_trace (btn : Button) : (acceptEdge s btn).trace = s.trace := rfl
@[simp] theorem acceptEdge_fnResult (btn : Button) : (acceptEdge s btn).fnResult = s.fnResult := rfl
@[simp] theorem acceptEdge_freeCount (btn : Button) : (acceptEdge s btn).freeCount = s.freeCount := rfl

/-! ### startMelody -/

@[simp] theorem startMelody_cfg (k : MelodyNo) : (startMelody s k).cfg = s.cfg := rfl
@[simp] theorem startMelody_held (k : MelodyNo) : (startMelody s k).held = s.held := rfl
@[simp] theorem startMelody_T (k : MelodyNo) : (startMelody s k).T = s.T := rfl
@[simp] theorem startMelody_inX (k : MelodyNo) : (startMelody s k).inX = s.inX := rfl
@[simp] theorem startMelody_inY (k : MelodyNo) : (startMelody s k).inY = s.inY := rfl
@[simp] theorem startMelody_calX (k : MelodyNo) : (startMelody s k).calX = s.calX := rfl
@[simp] theorem startMelody_calY (k : MelodyNo) : (startMelody s k).calY = s.calY := rfl
@[simp] theorem startMelody_rdX (k : MelodyNo) : (startMelody s k).rdX = s.rdX := rfl
@[simp] theorem startMelody_rdY (k : MelodyNo) : (startMelody s k).rdY = s.rdY := rfl
@[simp] theorem startMelody_curX (k : MelodyNo) : (startMelody s k).curX = s.curX := rfl
@[simp] theorem startMelody_curY (k : MelodyNo) : (startMelody s k).curY = s.curY := rfl
@[simp] theorem startMelody_cellRow (k : MelodyNo) : (startMelody s k).cellRow = s.cellRow := rfl
@[simp] theorem startMelody_cellCol (k : MelodyNo) : (startMelody s k).cellCol = s.cellCol := rfl
@[simp] theorem startMelody_movX (k : MelodyNo) : (startMelody s k).movX = s.movX := rfl
@[simp] theorem startMelody_movY (k : MelodyNo) : (startMelody s k).movY = s.movY := rfl
@[simp] theorem startMelody_debLast (k : MelodyNo) : (startMelody s k).debLast = s.debLast := rfl
@[simp] theorem startMelody_rgbEn (k : MelodyNo) : (startMelody s k).rgbEn = s.rgbEn := rfl
@[simp] theorem startMelody_sel (k : MelodyNo) : (startMelody s k).sel = s.sel := rfl
@[simp] theorem startMelody_colSel (k : MelodyNo) : (startMelody s k).colSel = s.colSel := rfl
@[simp] theorem startMelody_melreq1 (k : MelodyNo) : (startMelody s k).melreq1 = s.melreq1 := rfl
@[simp] theorem startMelody_melreq2 (k : MelodyNo) : (startMelody s k).melreq2 = s.melreq2 := rfl
@[simp] theorem startMelody_melreq3 (k : MelodyNo) : (startMelody s k).melreq3 = s.melreq3 := rfl
@[simp] theorem startMelody_rgbState (k : MelodyNo) : (startMelody s k).rgbState = s.rgbState := rfl
@[simp] theorem startMelody_rgbLast (k : MelodyNo) : (startMelody s k).rgbLast = s.rgbLast := rfl
@[simp] theorem startMelody_ledR (k : MelodyNo) : (startMelody s k).ledR = s.ledR := rfl
@[simp] theorem startMelody_ledG (k : MelodyNo) : (startMelody s k).ledG = s.ledG := rfl
@[simp] theorem startMelody_ledB (k : MelodyNo) : (startMelody s k).ledB = s.ledB := rfl
@[simp] theorem startMelody_ph (k : MelodyNo) : (startMelody s k).ph = 12#4 := rfl
@[simp] theorem startMelody_dl (k : MelodyNo) : (startMelody s k).dl = s.dl := rfl
@[simp] theorem startMelody_mel (k : MelodyNo) : (startMelody s k).mel = melodyCode k := rfl
@[simp] theorem startMelody_ni (k : MelodyNo) : (startMelody s k).ni = 0#8 := rfl
@[simp] theorem startMelody_ms (k : MelodyNo) : (startMelody s k).ms = 1#3 := rfl
@[simp] theorem startMelody_cyc (k : MelodyNo) : (startMelody s k).cyc = s.cyc := rfl
@[simp] theorem startMelody_half (k : MelodyNo) : (startMelody s k).half = s.half := rfl
@[simp] theorem startMelody_buzz (k : MelodyNo) : (startMelody s k).buzz = s.buzz := rfl
@[simp] theorem startMelody_mbuf (k : MelodyNo) : (startMelody s k).mbuf = s.mbuf := rfl
@[simp] theorem startMelody_out (k : MelodyNo) : (startMelody s k).out = s.out ++ [⟨s.T, .melStart k⟩] := rfl
@[simp] theorem startMelody_adv (k : MelodyNo) : (startMelody s k).adv = s.adv := rfl
@[simp] theorem startMelody_trace (k : MelodyNo) : (startMelody s k).trace = s.trace := rfl
@[simp] theorem startMelody_fnResult (k : MelodyNo) : (startMelody s k).fnResult = s.fnResult := rfl
@[simp] theorem startMelody_freeCount (k : MelodyNo) : (startMelody s k).freeCount = s.freeCount := rfl

/-! ### highEnd -/

@[simp] theorem highEnd_cfg : (highEnd s).cfg = s.cfg := rfl
@[simp] theorem highEnd_held : (highEnd s).held = s.held := rfl
@[simp] theorem highEnd_T : (highEnd s).T = s.T := rfl
@[simp] theorem highEnd_inX : (highEnd s).inX = s.inX := rfl
@[simp] theorem highEnd_inY : (highEnd s).inY = s.inY := rfl
@[simp] theorem highEnd_calX : (highEnd s).calX = s.calX := rfl
@[simp] theorem highEnd_calY : (highEnd s).calY = s.calY := rfl
@[simp] theorem highEnd_rdX : (highEnd s).rdX = s.rdX := rfl
@[simp] theorem highEnd_rdY : (highEnd s).rdY = s.rdY := rfl
@[simp] theorem highEnd_curX : (highEnd s).curX = s.curX := rfl
@[simp] theorem highEnd_curY : (highEnd s).curY = s.curY := rfl
@[simp] theorem highEnd_cellRow : (highEnd s).cellRow = s.cellRow := rfl
@[simp] theorem highEnd_cellCol : (highEnd s).cellCol = s.cellCol := rfl
@[simp] theorem highEnd_movX : (highEnd s).movX = s.movX := rfl
@[simp] theorem highEnd_movY : (highEnd s).movY = s.movY := rfl
@[simp] theorem highEnd_debLast : (highEnd s).debLast = s.debLast := rfl
@[simp] theorem highEnd_rgbEn : (highEnd s).rgbEn = s.rgbEn := rfl
@[simp] theorem highEnd_sel : (highEnd s).sel = s.sel := rfl
@[simp] theorem highEnd_colSel : (highEnd s).colSel = s.colSel := rfl
@[simp] theorem highEnd_melreq1 : (highEnd s).melreq1 = s.melreq1 := rfl
@[simp] theorem highEnd_melreq2 : (highEnd s).melreq2 = s.melreq2 := rfl
@[simp] theorem highEnd_melreq3 : (highEnd s).melreq3 = s.melreq3 := rfl
@[simp] theorem highEnd_rgbState : (highEnd s).rgbState = s.rgbState := rfl
@[simp] theorem highEnd_rgbLast : (highEnd s).rgbLast = s.rgbLast := rfl
@[simp] theorem highEnd_ledR : (highEnd s).ledR = s.ledR := rfl
@[simp] theorem highEnd_ledG : (highEnd s).ledG = s.ledG := rfl
@[simp] theorem highEnd_ledB : (highEnd s).ledB = s.ledB := rfl
@[simp] theorem highEnd_ph : (highEnd s).ph = s.ph := rfl
@[simp] theorem highEnd_dl : (highEnd s).dl = s.T + s.half.toNat := rfl
@[simp] theorem highEnd_mel : (highEnd s).mel = s.mel := rfl
@[simp] theorem highEnd_ni : (highEnd s).ni = s.ni := rfl
@[simp] theorem highEnd_ms : (highEnd s).ms = 3#3 := rfl
@[simp] theorem highEnd_cyc : (highEnd s).cyc = s.cyc := rfl
@[simp] theorem highEnd_half : (highEnd s).half = s.half := rfl
@[simp] theorem highEnd_buzz : (highEnd s).buzz = false := rfl
@[simp] theorem highEnd_mbuf : (highEnd s).mbuf = s.mbuf := rfl
@[simp] theorem highEnd_out : (highEnd s).out = s.out ++ buzzEvents s false := rfl
@[simp] theorem highEnd_adv : (highEnd s).adv = s.adv := rfl
@[simp] theorem highEnd_trace : (highEnd s).trace = s.trace := rfl
@[simp] theorem highEnd_fnResult : (highEnd s).fnResult = s.fnResult := rfl
@[simp] theorem highEnd_freeCount : (highEnd s).freeCount = s.freeCount := rfl

/-! ### restEnd -/

@[simp] theorem restEnd_cfg : (restEnd s).cfg = s.cfg := rfl
@[simp] theorem restEnd_held : (restEnd s).held = s.held := rfl
@[simp] theorem restEnd_T : (restEnd s).T = s.T := rfl
@[simp] theorem restEnd_inX : (restEnd s).inX = s.inX := rfl
@[simp] theorem restEnd_inY : (restEnd s).inY = s.inY := rfl
@[simp] theorem restEnd_calX : (restEnd s).calX = s.calX := rfl
@[simp] theorem restEnd_calY : (restEnd s).calY = s.calY := rfl
@[simp] theorem restEnd_rdX : (restEnd s).rdX = s.rdX := rfl
@[simp] theorem restEnd_rdY : (restEnd s).rdY = s.rdY := rfl
@[simp] theorem restEnd_curX : (restEnd s).curX = s.curX := rfl
@[simp] theorem restEnd_curY : (restEnd s).curY = s.curY := rfl
@[simp] theorem restEnd_cellRow : (restEnd s).cellRow = s.cellRow := rfl
@[simp] theorem restEnd_cellCol : (restEnd s).cellCol = s.cellCol := rfl
@[simp] theorem restEnd_movX : (restEnd s).movX = s.movX := rfl
@[simp] theorem restEnd_movY : (restEnd s).movY = s.movY := rfl
@[simp] theorem restEnd_debLast : (restEnd s).debLast = s.debLast := rfl
@[simp] theorem restEnd_rgbEn : (restEnd s).rgbEn = s.rgbEn := rfl
@[simp] theorem restEnd_sel : (restEnd s).sel = s.sel := rfl
@[simp] theorem restEnd_colSel : (restEnd s).colSel = s.colSel := rfl
@[simp] theorem restEnd_melreq1 : (restEnd s).melreq1 = s.melreq1 := rfl
@[simp] theorem restEnd_melreq2 : (restEnd s).melreq2 = s.melreq2 := rfl
@[simp] theorem restEnd_melreq3 : (restEnd s).melreq3 = s.melreq3 := rfl
@[simp] theorem restEnd_rgbState : (restEnd s).rgbState = s.rgbState := rfl
@[simp] theorem restEnd_rgbLast : (restEnd s).rgbLast = s.rgbLast := rfl
@[simp] theorem restEnd_ledR : (restEnd s).ledR = s.ledR := rfl
@[simp] theorem restEnd_ledG : (restEnd s).ledG = s.ledG := rfl
@[simp] theorem restEnd_ledB : (restEnd s).ledB = s.ledB := rfl
@[simp] theorem restEnd_ph : (restEnd s).ph = s.ph := rfl
@[simp] theorem restEnd_dl : (restEnd s).dl = s.T + s.cfg.tGap.val := rfl
@[simp] theorem restEnd_mel : (restEnd s).mel = s.mel := rfl
@[simp] theorem restEnd_ni : (restEnd s).ni = s.ni := rfl
@[simp] theorem restEnd_ms : (restEnd s).ms = 5#3 := rfl
@[simp] theorem restEnd_cyc : (restEnd s).cyc = s.cyc := rfl
@[simp] theorem restEnd_half : (restEnd s).half = s.half := rfl
@[simp] theorem restEnd_buzz : (restEnd s).buzz = s.buzz := rfl
@[simp] theorem restEnd_mbuf : (restEnd s).mbuf = s.mbuf := rfl
@[simp] theorem restEnd_out : (restEnd s).out = s.out := rfl
@[simp] theorem restEnd_adv : (restEnd s).adv = s.adv := rfl
@[simp] theorem restEnd_trace : (restEnd s).trace = s.trace := rfl
@[simp] theorem restEnd_fnResult : (restEnd s).fnResult = s.fnResult := rfl
@[simp] theorem restEnd_freeCount : (restEnd s).freeCount = s.freeCount := rfl

/-! ### countLead -/

@[simp] theorem countLead_cfg : (countLead s).cfg = s.cfg := rfl
@[simp] theorem countLead_held : (countLead s).held = s.held := rfl
@[simp] theorem countLead_T : (countLead s).T = s.T := rfl
@[simp] theorem countLead_inX : (countLead s).inX = s.inX := rfl
@[simp] theorem countLead_inY : (countLead s).inY = s.inY := rfl
@[simp] theorem countLead_calX : (countLead s).calX = s.calX := rfl
@[simp] theorem countLead_calY : (countLead s).calY = s.calY := rfl
@[simp] theorem countLead_rdX : (countLead s).rdX = s.rdX := rfl
@[simp] theorem countLead_rdY : (countLead s).rdY = s.rdY := rfl
@[simp] theorem countLead_curX : (countLead s).curX = s.curX := rfl
@[simp] theorem countLead_curY : (countLead s).curY = s.curY := rfl
@[simp] theorem countLead_cellRow : (countLead s).cellRow = s.cellRow := rfl
@[simp] theorem countLead_cellCol : (countLead s).cellCol = s.cellCol := rfl
@[simp] theorem countLead_movX : (countLead s).movX = s.movX := rfl
@[simp] theorem countLead_movY : (countLead s).movY = s.movY := rfl
@[simp] theorem countLead_debLast : (countLead s).debLast = s.debLast := rfl
@[simp] theorem countLead_rgbEn : (countLead s).rgbEn = s.rgbEn := rfl
@[simp] theorem countLead_sel : (countLead s).sel = s.sel := rfl
@[simp] theorem countLead_colSel : (countLead s).colSel = s.colSel := rfl
@[simp] theorem countLead_melreq1 : (countLead s).melreq1 = s.melreq1 := rfl
@[simp] theorem countLead_melreq2 : (countLead s).melreq2 = s.melreq2 := rfl
@[simp] theorem countLead_melreq3 : (countLead s).melreq3 = s.melreq3 := rfl
@[simp] theorem countLead_rgbState : (countLead s).rgbState = s.rgbState := rfl
@[simp] theorem countLead_rgbLast : (countLead s).rgbLast = s.rgbLast := rfl
@[simp] theorem countLead_ledR : (countLead s).ledR = s.ledR := rfl
@[simp] theorem countLead_ledG : (countLead s).ledG = s.ledG := rfl
@[simp] theorem countLead_ledB : (countLead s).ledB = s.ledB := rfl
@[simp] theorem countLead_ph : (countLead s).ph = s.ph := rfl
@[simp] theorem countLead_dl : (countLead s).dl = s.dl := rfl
@[simp] theorem countLead_mel : (countLead s).mel = s.mel := rfl
@[simp] theorem countLead_ni : (countLead s).ni = s.ni := rfl
@[simp] theorem countLead_ms : (countLead s).ms = s.ms := rfl
@[simp] theorem countLead_cyc : (countLead s).cyc = s.cyc := rfl
@[simp] theorem countLead_half : (countLead s).half = s.half := rfl
@[simp] theorem countLead_buzz : (countLead s).buzz = s.buzz := rfl
@[simp] theorem countLead_mbuf : (countLead s).mbuf = s.mbuf := rfl
@[simp] theorem countLead_out : (countLead s).out = s.out := rfl
@[simp] theorem countLead_adv : (countLead s).adv = s.adv := rfl
@[simp] theorem countLead_fnResult : (countLead s).fnResult = s.fnResult := rfl
@[simp] theorem countLead_freeCount : (countLead s).freeCount = s.freeCount := rfl

/-! ### dropStimulus -/

@[simp] theorem dropStimulus_cfg : (dropStimulus s).cfg = s.cfg := rfl
@[simp] theorem dropStimulus_held : (dropStimulus s).held = s.held := rfl
@[simp] theorem dropStimulus_T : (dropStimulus s).T = s.T := rfl
@[simp] theorem dropStimulus_inX : (dropStimulus s).inX = s.inX := rfl
@[simp] theorem dropStimulus_inY : (dropStimulus s).inY = s.inY := rfl
@[simp] theorem dropStimulus_calX : (dropStimulus s).calX = s.calX := rfl
@[simp] theorem dropStimulus_calY : (dropStimulus s).calY = s.calY := rfl
@[simp] theorem dropStimulus_rdX : (dropStimulus s).rdX = s.rdX := rfl
@[simp] theorem dropStimulus_rdY : (dropStimulus s).rdY = s.rdY := rfl
@[simp] theorem dropStimulus_curX : (dropStimulus s).curX = s.curX := rfl
@[simp] theorem dropStimulus_curY : (dropStimulus s).curY = s.curY := rfl
@[simp] theorem dropStimulus_cellRow : (dropStimulus s).cellRow = s.cellRow := rfl
@[simp] theorem dropStimulus_cellCol : (dropStimulus s).cellCol = s.cellCol := rfl
@[simp] theorem dropStimulus_movX : (dropStimulus s).movX = s.movX := rfl
@[simp] theorem dropStimulus_movY : (dropStimulus s).movY = s.movY := rfl
@[simp] theorem dropStimulus_debLast : (dropStimulus s).debLast = s.debLast := rfl
@[simp] theorem dropStimulus_rgbEn : (dropStimulus s).rgbEn = s.rgbEn := rfl
@[simp] theorem dropStimulus_sel : (dropStimulus s).sel = s.sel := rfl
@[simp] theorem dropStimulus_colSel : (dropStimulus s).colSel = s.colSel := rfl
@[simp] theorem dropStimulus_melreq1 : (dropStimulus s).melreq1 = s.melreq1 := rfl
@[simp] theorem dropStimulus_melreq2 : (dropStimulus s).melreq2 = s.melreq2 := rfl
@[simp] theorem dropStimulus_melreq3 : (dropStimulus s).melreq3 = s.melreq3 := rfl
@[simp] theorem dropStimulus_rgbState : (dropStimulus s).rgbState = s.rgbState := rfl
@[simp] theorem dropStimulus_rgbLast : (dropStimulus s).rgbLast = s.rgbLast := rfl
@[simp] theorem dropStimulus_ledR : (dropStimulus s).ledR = s.ledR := rfl
@[simp] theorem dropStimulus_ledG : (dropStimulus s).ledG = s.ledG := rfl
@[simp] theorem dropStimulus_ledB : (dropStimulus s).ledB = s.ledB := rfl
@[simp] theorem dropStimulus_ph : (dropStimulus s).ph = s.ph := rfl
@[simp] theorem dropStimulus_dl : (dropStimulus s).dl = s.dl := rfl
@[simp] theorem dropStimulus_mel : (dropStimulus s).mel = s.mel := rfl
@[simp] theorem dropStimulus_ni : (dropStimulus s).ni = s.ni := rfl
@[simp] theorem dropStimulus_ms : (dropStimulus s).ms = s.ms := rfl
@[simp] theorem dropStimulus_cyc : (dropStimulus s).cyc = s.cyc := rfl
@[simp] theorem dropStimulus_half : (dropStimulus s).half = s.half := rfl
@[simp] theorem dropStimulus_buzz : (dropStimulus s).buzz = s.buzz := rfl
@[simp] theorem dropStimulus_mbuf : (dropStimulus s).mbuf = s.mbuf := rfl
@[simp] theorem dropStimulus_out : (dropStimulus s).out = s.out := rfl
@[simp] theorem dropStimulus_adv : (dropStimulus s).adv = s.adv := rfl
@[simp] theorem dropStimulus_trace : (dropStimulus s).trace = s.trace.tail := rfl
@[simp] theorem dropStimulus_fnResult : (dropStimulus s).fnResult = s.fnResult := rfl
@[simp] theorem dropStimulus_freeCount : (dropStimulus s).freeCount = s.freeCount := rfl

/-! ### bare -/

@[simp] theorem bare_cfg : (bare s).cfg = s.cfg := rfl
@[simp] theorem bare_held : (bare s).held = s.held := rfl
@[simp] theorem bare_T : (bare s).T = s.T := rfl
@[simp] theorem bare_inX : (bare s).inX = s.inX := rfl
@[simp] theorem bare_inY : (bare s).inY = s.inY := rfl
@[simp] theorem bare_calX : (bare s).calX = s.calX := rfl
@[simp] theorem bare_calY : (bare s).calY = s.calY := rfl
@[simp] theorem bare_rdX : (bare s).rdX = s.rdX := rfl
@[simp] theorem bare_rdY : (bare s).rdY = s.rdY := rfl
@[simp] theorem bare_curX : (bare s).curX = s.curX := rfl
@[simp] theorem bare_curY : (bare s).curY = s.curY := rfl
@[simp] theorem bare_cellRow : (bare s).cellRow = s.cellRow := rfl
@[simp] theorem bare_cellCol : (bare s).cellCol = s.cellCol := rfl
@[simp] theorem bare_movX : (bare s).movX = s.movX := rfl
@[simp] theorem bare_movY : (bare s).movY = s.movY := rfl
@[simp] theorem bare_debLast : (bare s).debLast = s.debLast := rfl
@[simp] theorem bare_rgbEn : (bare s).rgbEn = s.rgbEn := rfl
@[simp] theorem bare_sel : (bare s).sel = s.sel := rfl
@[simp] theorem bare_colSel : (bare s).colSel = s.colSel := rfl
@[simp] theorem bare_melreq1 : (bare s).melreq1 = s.melreq1 := rfl
@[simp] theorem bare_melreq2 : (bare s).melreq2 = s.melreq2 := rfl
@[simp] theorem bare_melreq3 : (bare s).melreq3 = s.melreq3 := rfl
@[simp] theorem bare_rgbState : (bare s).rgbState = s.rgbState := rfl
@[simp] theorem bare_rgbLast : (bare s).rgbLast = s.rgbLast := rfl
@[simp] theorem bare_ledR : (bare s).ledR = s.ledR := rfl
@[simp] theorem bare_ledG : (bare s).ledG = s.ledG := rfl
@[simp] theorem bare_ledB : (bare s).ledB = s.ledB := rfl
@[simp] theorem bare_ph : (bare s).ph = s.ph := rfl
@[simp] theorem bare_dl : (bare s).dl = s.dl := rfl
@[simp] theorem bare_mel : (bare s).mel = s.mel := rfl
@[simp] theorem bare_ni : (bare s).ni = s.ni := rfl
@[simp] theorem bare_ms : (bare s).ms = s.ms := rfl
@[simp] theorem bare_cyc : (bare s).cyc = s.cyc := rfl
@[simp] theorem bare_half : (bare s).half = s.half := rfl
@[simp] theorem bare_buzz : (bare s).buzz = s.buzz := rfl
@[simp] theorem bare_mbuf : (bare s).mbuf = s.mbuf := rfl
@[simp] theorem bare_out : (bare s).out = s.out := rfl
@[simp] theorem bare_adv : (bare s).adv = 0 := rfl
@[simp] theorem bare_trace : (bare s).trace = [] := rfl
@[simp] theorem bare_fnResult : (bare s).fnResult = s.fnResult := rfl
@[simp] theorem bare_freeCount : (bare s).freeCount = s.freeCount := rfl

/-! ### setMelreq -/

@[simp] theorem setMelreq_cfg (k : MelodyNo) (v : Bool) : (setMelreq s k v).cfg = s.cfg := by cases k <;> rfl
@[simp] theorem setMelreq_held (k : MelodyNo) (v : Bool) : (setMelreq s k v).held = s.held := by cases k <;> rfl
@[simp] theorem setMelreq_T (k : MelodyNo) (v : Bool) : (setMelreq s k v).T = s.T := by cases k <;> rfl
@[simp] theorem setMelreq_inX (k : MelodyNo) (v : Bool) : (setMelreq s k v).inX = s.inX := by cases k <;> rfl
@[simp] theorem setMelreq_inY (k : MelodyNo) (v : Bool) : (setMelreq s k v).inY = s.inY := by cases k <;> rfl
@[simp] theorem setMelreq_calX (k : MelodyNo) (v : Bool) : (setMelreq s k v).calX = s.calX := by cases k <;> rfl
@[simp] theorem setMelreq_calY (k : MelodyNo) (v : Bool) : (setMelreq s k v).calY = s.calY := by cases k <;> rfl
@[simp] theorem setMelreq_rdX (k : MelodyNo) (v : Bool) : (setMelreq s k v).rdX = s.rdX := by cases k <;> rfl
@[simp] theorem setMelreq_rdY (k : MelodyNo) (v : Bool) : (setMelreq s k v).rdY = s.rdY := by cases k <;> rfl
@[simp] theorem setMelreq_curX (k : MelodyNo) (v : Bool) : (setMelreq s k v).curX = s.curX := by cases k <;> rfl
@[simp] theorem setMelreq_curY (k : MelodyNo) (v : Bool) : (setMelreq s k v).curY = s.curY := by cases k <;> rfl
@[simp] theorem setMelreq_cellRow (k : MelodyNo) (v : Bool) : (setMelreq s k v).cellRow = s.cellRow := by cases k <;> rfl
@[simp] theorem setMelreq_cellCol (k : MelodyNo) (v : Bool) : (setMelreq s k v).cellCol = s.cellCol := by cases k <;> rfl
@[simp] theorem setMelreq_movX (k : MelodyNo) (v : Bool) : (setMelreq s k v).movX = s.movX := by cases k <;> rfl
@[simp] theorem setMelreq_movY (k : MelodyNo) (v : Bool) : (setMelreq s k v).movY = s.movY := by cases k <;> rfl
@[simp] theorem setMelreq_debLast (k : MelodyNo) (v : Bool) : (setMelreq s k v).debLast = s.debLast := by cases k <;> rfl
@[simp] theorem setMelreq_rgbEn (k : MelodyNo) (v : Bool) : (setMelreq s k v).rgbEn = s.rgbEn := by cases k <;> rfl
@[simp] theorem setMelreq_sel (k : MelodyNo) (v : Bool) : (setMelreq s k v).sel = s.sel := by cases k <;> rfl
@[simp] theorem setMelreq_colSel (k : MelodyNo) (v : Bool) : (setMelreq s k v).colSel = s.colSel := by cases k <;> rfl
@[simp] theorem setMelreq_rgbState (k : MelodyNo) (v : Bool) : (setMelreq s k v).rgbState = s.rgbState := by cases k <;> rfl
@[simp] theorem setMelreq_rgbLast (k : MelodyNo) (v : Bool) : (setMelreq s k v).rgbLast = s.rgbLast := by cases k <;> rfl
@[simp] theorem setMelreq_ledR (k : MelodyNo) (v : Bool) : (setMelreq s k v).ledR = s.ledR := by cases k <;> rfl
@[simp] theorem setMelreq_ledG (k : MelodyNo) (v : Bool) : (setMelreq s k v).ledG = s.ledG := by cases k <;> rfl
@[simp] theorem setMelreq_ledB (k : MelodyNo) (v : Bool) : (setMelreq s k v).ledB = s.ledB := by cases k <;> rfl
@[simp] theorem setMelreq_ph (k : MelodyNo) (v : Bool) : (setMelreq s k v).ph = s.ph := by cases k <;> rfl
@[simp] theorem setMelreq_dl (k : MelodyNo) (v : Bool) : (setMelreq s k v).dl = s.dl := by cases k <;> rfl
@[simp] theorem setMelreq_mel (k : MelodyNo) (v : Bool) : (setMelreq s k v).mel = s.mel := by cases k <;> rfl
@[simp] theorem setMelreq_ni (k : MelodyNo) (v : Bool) : (setMelreq s k v).ni = s.ni := by cases k <;> rfl
@[simp] theorem setMelreq_ms (k : MelodyNo) (v : Bool) : (setMelreq s k v).ms = s.ms := by cases k <;> rfl
@[simp] theorem setMelreq_cyc (k : MelodyNo) (v : Bool) : (setMelreq s k v).cyc = s.cyc := by cases k <;> rfl
@[simp] theorem setMelreq_half (k : MelodyNo) (v : Bool) : (setMelreq s k v).half = s.half := by cases k <;> rfl
@[simp] theorem setMelreq_buzz (k : MelodyNo) (v : Bool) : (setMelreq s k v).buzz = s.buzz := by cases k <;> rfl
@[simp] theorem setMelreq_mbuf (k : MelodyNo) (v : Bool) : (setMelreq s k v).mbuf = s.mbuf := by cases k <;> rfl
@[simp] theorem setMelreq_out (k : MelodyNo) (v : Bool) : (setMelreq s k v).out = s.out := by cases k <;> rfl
@[simp] theorem setMelreq_adv (k : MelodyNo) (v : Bool) : (setMelreq s k v).adv = s.adv := by cases k <;> rfl
@[simp] theorem setMelreq_trace (k : MelodyNo) (v : Bool) : (setMelreq s k v).trace = s.trace := by cases k <;> rfl
@[simp] theorem setMelreq_fnResult (k : MelodyNo) (v : Bool) : (setMelreq s k v).fnResult = s.fnResult := by cases k <;> rfl
@[simp] theorem setMelreq_freeCount (k : MelodyNo) (v : Bool) : (setMelreq s k v).freeCount = s.freeCount := by cases k <;> rfl

/-! ### afterSlot -/

@[simp] theorem afterSlot_cfg (k : MelodyNo) : (afterSlot s k).cfg = s.cfg := by cases k <;> rfl
@[simp] theorem afterSlot_held (k : MelodyNo) : (afterSlot s k).held = s.held := by cases k <;> rfl
@[simp] theorem afterSlot_T (k : MelodyNo) : (afterSlot s k).T = s.T := by cases k <;> rfl
@[simp] theorem afterSlot_inX (k : MelodyNo) : (afterSlot s k).inX = s.inX := by cases k <;> rfl
@[simp] theorem afterSlot_inY (k : MelodyNo) : (afterSlot s k).inY = s.inY := by cases k <;> rfl
@[simp] theorem afterSlot_calX (k : MelodyNo) : (afterSlot s k).calX = s.calX := by cases k <;> rfl
@[simp] theorem afterSlot_calY (k : MelodyNo) : (afterSlot s k).calY = s.calY := by cases k <;> rfl
@[simp] theorem afterSlot_rdX (k : MelodyNo) : (afterSlot s k).rdX = s.rdX := by cases k <;> rfl
@[simp] theorem afterSlot_rdY (k : MelodyNo) : (afterSlot s k).rdY = s.rdY := by cases k <;> rfl
@[simp] theorem afterSlot_curX (k : MelodyNo) : (afterSlot s k).curX = s.curX := by cases k <;> rfl
@[simp] theorem afterSlot_curY (k : MelodyNo) : (afterSlot s k).curY = s.curY := by cases k <;> rfl
@[simp] theorem afterSlot_cellRow (k : MelodyNo) : (afterSlot s k).cellRow = s.cellRow := by cases k <;> rfl
@[simp] theorem afterSlot_cellCol (k : MelodyNo) : (afterSlot s k).cellCol = s.cellCol := by cases k <;> rfl
@[simp] theorem afterSlot_movX (k : MelodyNo) : (afterSlot s k).movX = s.movX := by cases k <;> rfl
@[simp] theorem afterSlot_movY (k : MelodyNo) : (afterSlot s k).movY = s.movY := by cases k <;> rfl
@[simp] theorem afterSlot_debLast (k : MelodyNo) : (afterSlot s k).debLast = s.debLast := by cases k <;> rfl
@[simp] theorem afterSlot_rgbEn (k : MelodyNo) : (afterSlot s k).rgbEn = s.rgbEn := by cases k <;> rfl
@[simp] theorem afterSlot_sel (k : MelodyNo) : (afterSlot s k).sel = s.sel := by cases k <;> rfl
@[simp] theorem afterSlot_colSel (k : MelodyNo) : (afterSlot s k).colSel = s.colSel := by cases k <;> rfl
@[simp] theorem afterSlot_melreq1 (k : MelodyNo) : (afterSlot s k).melreq1 = s.melreq1 := by cases k <;> rfl
@[simp] theorem afterSlot_melreq2 (k : MelodyNo) : (afterSlot s k).melreq2 = s.melreq2 := by cases k <;> rfl
@[simp] theorem afterSlot_melreq3 (k : MelodyNo) : (afterSlot s k).melreq3 = s.melreq3 := by cases k <;> rfl
@[simp] theorem afterSlot_rgbState (k : MelodyNo) : (afterSlot s k).rgbState = s.rgbState := by cases k <;> rfl
@[simp] theorem afterSlot_rgbLast (k : MelodyNo) : (afterSlot s k).rgbLast = s.rgbLast := by cases k <;> rfl
@[simp] theorem afterSlot_ledR (k : MelodyNo) : (afterSlot s k).ledR = s.ledR := by cases k <;> rfl
@[simp] theorem afterSlot_ledG (k : MelodyNo) : (afterSlot s k).ledG = s.ledG := by cases k <;> rfl
@[simp] theorem afterSlot_ledB (k : MelodyNo) : (afterSlot s k).ledB = s.ledB := by cases k <;> rfl
@[simp] theorem afterSlot_mel (k : MelodyNo) : (afterSlot s k).mel = s.mel := by cases k <;> rfl
@[simp] theorem afterSlot_ni (k : MelodyNo) : (afterSlot s k).ni = s.ni := by cases k <;> rfl
@[simp] theorem afterSlot_ms (k : MelodyNo) : (afterSlot s k).ms = s.ms := by cases k <;> rfl
@[simp] theorem afterSlot_cyc (k : MelodyNo) : (afterSlot s k).cyc = s.cyc := by cases k <;> rfl
@[simp] theorem afterSlot_half (k : MelodyNo) : (afterSlot s k).half = s.half := by cases k <;> rfl
@[simp] theorem afterSlot_buzz (k : MelodyNo) : (afterSlot s k).buzz = s.buzz := by cases k <;> rfl
@[simp] theorem afterSlot_mbuf (k : MelodyNo) : (afterSlot s k).mbuf = s.mbuf := by cases k <;> rfl
@[simp] theorem afterSlot_out (k : MelodyNo) : (afterSlot s k).out = s.out := by cases k <;> rfl
@[simp] theorem afterSlot_adv (k : MelodyNo) : (afterSlot s k).adv = s.adv := by cases k <;> rfl
@[simp] theorem afterSlot_trace (k : MelodyNo) : (afterSlot s k).trace = s.trace := by cases k <;> rfl
@[simp] theorem afterSlot_fnResult (k : MelodyNo) : (afterSlot s k).fnResult = s.fnResult := by cases k <;> rfl
@[simp] theorem afterSlot_freeCount (k : MelodyNo) : (afterSlot s k).freeCount = s.freeCount := by cases k <;> rfl

@[simp] theorem melreq_setMelreq (k j : MelodyNo) (v : Bool) :
    melreq (setMelreq s k v) j = if j = k then v else melreq s j := by
  cases k <;> cases j <;> rfl

end Sys2Proof.Machine
end

