-- ==== Sys2Proof/Laws/Ops.lean ====
section
/-! SUPPORT. For each shared operation, once, everything it can do: "if it answers next t, then one of these holds". -/

namespace Sys2Proof.Machine

/-! ### Held in reset, waits, phases -/

@[simp] theorem whenLive_live {s : State} (h : s.held = false) (o : Result) : whenLive s o = o := by
  simp [whenLive, h]

@[simp] theorem whenLive_held {s : State} (h : s.held = true) (o : Result) : whenLive s o = .refused .heldInReset := by
  simp [whenLive, h]

theorem whenLive_next {s t : State} {o : Result} (h : whenLive s o = .next t) : s.held = false ∧ o = .next t := by
  cases hs : s.held
  · rw [whenLive_live hs] at h; exact ⟨rfl, h⟩
  · rw [whenLive_held hs] at h; cases h

theorem deadlineMet_iff (s : State) : deadlineMet s = true ↔ s.dl ≤ s.T := by simp [deadlineMet]

theorem whenDue_due {s : State} (h : s.dl ≤ s.T) (o : Result) : whenDue s o = o := by
  simp [whenDue, deadlineMet, h]

theorem whenDue_wait {s : State} (h : s.T < s.dl) (o : Result) : whenDue s o = .next s := by
  simp [whenDue, deadlineMet, Nat.not_le.mpr h]

theorem whenDue_next {s t : State} {o : Result} (h : whenDue s o = .next t) :
    (s.T < s.dl ∧ t = s) ∨ (s.dl ≤ s.T ∧ o = .next t) := by
  rcases Nat.lt_or_ge s.T s.dl with hd | hd
  · rw [whenDue_wait hd] at h; cases h; exact .inl ⟨hd, rfl⟩
  · rw [whenDue_due hd] at h; exact .inr ⟨hd, h⟩

theorem thenPhase_next {p : BitVec 4} {o : Result} {t : State} (h : thenPhase p o = .next t) :
    ∃ u, o = .next u ∧ t = { u with ph := p } := by
  cases o with
  | next u => cases h; exact ⟨u, rfl, rfl⟩
  | fault r => cases h
  | refused r => cases h

theorem readingOk_iff (c : Config) (v : Reading) : readingOk c v = true ↔ v.toNat < c.period := by
  simp [readingOk]

theorem debReady_iff (s : State) : debReady s = true ↔ s.debLast + 200000 ≤ s.T := by
  simp [debReady]

theorem rgbDue_iff (s : State) : rgbDue s = true ↔ s.rgbLast + 300000 ≤ s.T := by
  simp [rgbDue]

theorem gateState_ready (s : State) : gateState s = .ready ↔ s.debLast + 200000 ≤ s.T := by
  rw [← debReady_iff]; unfold gateState; split <;> simp_all

theorem gateState_lockout (s : State) : gateState s = .lockout ↔ s.T < s.debLast + 200000 := by
  rw [← Nat.not_le, ← debReady_iff]; unfold gateState; split <;> simp_all

/-! ### The EDGE step -/

theorem buttonAction_a (s : State) :
    buttonAction s .a = .next (setLeds { s with rgbEn := !s.rgbEn } false false false) := rfl

theorem buttonAction_b_next {s t : State} (h : buttonAction s .b = .next t) :
    ∃ k, selectedMelody s.sel = some k ∧ t = setMelreq { s with colSel := s.sel, sel := nextOfThree s.sel } k true := by
  unfold buttonAction at h
  split at h
  · rename_i hs; cases hs
  · split at h
    · rename_i k hk; cases h; exact ⟨k, hk, rfl⟩
    · cases h

/-- An EDGE step that answers is a rejection that only records itself, or an acceptance followed by the button's action. -/
theorem edgeStep_next {s t : State} {btn : Button} (h : edgeStep s btn = .next t) :
    (s.T < s.debLast + 200000 ∧ t = emit s (.rej btn)) ∨
    (s.debLast + 200000 ≤ s.T ∧ buttonAction (acceptEdge s btn) btn = .next t) := by
  unfold edgeStep at h
  split at h
  · rename_i hr; exact .inr ⟨(debReady_iff s).mp hr, h⟩
  · rename_i hr; cases h
    exact .inl ⟨Nat.not_le.mp (fun hc => hr ((debReady_iff s).mpr hc)), rfl⟩

/-! ### The colour cycle -/

/-- A firing lights one channel, advances the state and records the time. -/
theorem rgbFire_next {s t : State} (h : rgbFire s = .next t) :
    ∃ red green blue, ((red, green, blue) = (false, false, true) ∨ (red, green, blue) = (true, false, false) ∨
        (red, green, blue) = (false, true, false)) ∧ s.rgbState ≠ 3#2 ∧
      t = { setLeds s red green blue with rgbState := nextOfThree s.rgbState, rgbLast := s.T } := by
  unfold rgbFire at h
  split at h
  · rename_i h0; cases h; refine ⟨_, _, _, .inl rfl, ?_, rfl⟩; intro hc; rw [hc] at h0; cases h0
  · rename_i h0; cases h; refine ⟨_, _, _, .inr (.inl rfl), ?_, rfl⟩; intro hc; rw [hc] at h0; cases h0
  · rename_i h0; cases h; refine ⟨_, _, _, .inr (.inr rfl), ?_, rfl⟩; intro hc; rw [hc] at h0; cases h0
  · cases h

theorem legal_code {v : BitVec 2} (h : v ≠ 3#2) : v = 0#2 ∨ v = 1#2 ∨ v = 2#2 := by
  revert v; decide

theorem rgbFire_completes {s : State} (h : s.rgbState ≠ 3#2) : ∃ t, rgbFire s = .next t := by
  rcases legal_code h with h | h | h <;> simp [rgbFire, h]

/-- The colour-cycle decision: disabled and dark, enabled and not due, or a firing. -/
theorem rgbStep_next {s t : State} (h : rgbStep s = .next t) :
    (s.rgbEn = false ∧ t = setLeds s false false false) ∨ (s.rgbEn = true ∧ s.T < s.rgbLast + 300000 ∧ t = s) ∨
    (s.rgbEn = true ∧ s.rgbLast + 300000 ≤ s.T ∧ rgbFire s = .next t) := by
  unfold rgbStep at h
  cases he : s.rgbEn
  · simp only [he] at h; cases h; exact .inl ⟨rfl, rfl⟩
  · simp only [he, if_true] at h
    split at h
    · rename_i hd; exact .inr (.inr ⟨rfl, (rgbDue_iff s).mp hd, h⟩)
    · rename_i hd; cases h
      exact .inr (.inl ⟨rfl, Nat.not_le.mp (fun hc => hd ((rgbDue_iff s).mpr hc)), rfl⟩)

/-! ### Melodies -/

theorem melodyOfCode_code (k : MelodyNo) : melodyOfCode (melodyCode k) = some k := by cases k <;> rfl

theorem melodyCode_ne_zero (k : MelodyNo) : melodyCode k ≠ 0#2 := by cases k <;> decide

theorem melodyOfCode_eq_none {v : BitVec 2} : melodyOfCode v = none ↔ v = 0#2 := by
  revert v; decide

theorem melodyOfCode_eq_some {v : BitVec 2} {k : MelodyNo} : melodyOfCode v = some k ↔ v = melodyCode k := by
  revert v k
  intro v k
  cases k <;> revert v <;> decide

/-- A service slot either starts its melody (its flag set) or passes on. -/
theorem serviceSlot_cases (s : State) (k : MelodyNo) :
    (melreq s k = true ∧ ∃ v, serviceSlot s k = startMelody (setMelreq s k v) k) ∨
    (melreq s k = false ∧ serviceSlot s k = afterSlot s k) := by
  cases hk : melreq s k
  · exact .inr ⟨rfl, by simp [serviceSlot, hk]⟩
  · refine .inl ⟨rfl, ?_⟩
    cases hc : s.cfg.melreqClear
    · exact ⟨false, by simp [serviceSlot, hk, hc]⟩
    · refine ⟨true, ?_⟩
      have : setMelreq s k true = s := by
        cases k <;> simp only [melreq] at hk <;> simp [setMelreq, ← hk]
      simp [serviceSlot, hk, hc, this]

/-- The end of a melody, with the flag it leaves. -/
theorem endMelody_eq (s : State) (k : MelodyNo) :
    ∃ v, endMelody s k =
      afterSlot { setMelreq (emit s (.melEnd k)) k v with mel := 0#2, ni := 0#8, ms := 0#3 } k := by
  cases hc : s.cfg.melreqClear
  · refine ⟨melreq s k, ?_⟩
    have : setMelreq (emit s (.melEnd k)) k (melreq s k) = emit s (.melEnd k) := by cases k <;> rfl
    simp [endMelody, hc, this]
  · exact ⟨false, by simp [endMelody, hc]⟩

/-- A fetch that answers ends the melody or enters an entry that exists. -/
theorem fetchNote_next {s t : State} (h : fetchNote s = .next t) :
    ∃ k, melodyOfCode s.mel = some k ∧
      ((s.ni.toNat = melodyLen s.cfg k ∧ t = endMelody s k) ∨
       (s.ni.toNat < melodyLen s.cfg k ∧ ∃ w, noteRead s.cfg k s.ni.toNat = some w ∧ t = enterNote s w)) := by
  unfold fetchNote at h
  split at h
  · cases h
  · rename_i k hk
    refine ⟨k, hk, ?_⟩
    split at h
    · rename_i hn; cases h; exact .inl ⟨hn, rfl⟩
    · split at h
      · rename_i w hw; cases h
        refine .inr ⟨?_, w, hw, rfl⟩
        obtain ⟨hlt, _⟩ := List.getElem?_eq_some_iff.mp hw
        exact hlt
      · cases h

/-- A fetch answers whenever the melody exists and `ni` is not past its end. -/
theorem fetchNote_completes {s : State} {k : MelodyNo} (hk : melodyOfCode s.mel = some k)
    (hn : s.ni.toNat ≤ melodyLen s.cfg k) : ∃ t, fetchNote s = .next t := by
  simp only [fetchNote, hk]
  split
  · exact ⟨_, rfl⟩
  · rename_i hne
    have hlt : s.ni.toNat < (melodyWords s.cfg k).length := by
      have : melodyLen s.cfg k = (melodyWords s.cfg k).length := rfl
      omega
    simp [noteRead, List.getElem?_eq_getElem hlt]

/-- The end of a low half: the last cycle's, an earlier one's, or that of a count with no stated successor. -/
theorem lowEnd_cases (s : State) :
    (s.cyc = 1#32 ∧ lowEnd s = { s with cyc := 0#32, dl := s.T + 20000, ms := 5#3 }) ∨
    (s.cyc ≠ 0#32 ∧ s.cyc ≠ 1#32 ∧
      lowEnd s = { setBuzz s true with cyc := s.cyc - 1#32, dl := s.T + s.half.toNat, ms := 2#3 }) ∨
    (s.cyc = 0#32 ∧ lowEnd s =
      { setBuzz s true with
        cyc := Config.freeCyc s.freeCount, freeCount := s.freeCount + 1, dl := s.T + s.half.toNat, ms := 2#3 }) := by
  by_cases h0 : s.cyc = 0#32
  · exact .inr (.inr ⟨h0, by simp [lowEnd, h0]⟩)
  · by_cases h1 : s.cyc = 1#32
    · exact .inl ⟨h1, by simp [lowEnd, h1]⟩
    · exact .inr (.inl ⟨h0, h1, by simp [lowEnd, h0, h1]⟩)

/-- The end of a gap: the next entry, or a count with no stated successor. -/
theorem gapEnd_cases (s : State) :
    (s.ni ≠ 255#8 ∧ gapEnd s = { s with ni := s.ni + 1#8, ms := 1#3 }) ∨
    (s.ni = 255#8 ∧ gapEnd s = { s with ni := Config.freeNi s.freeCount, freeCount := s.freeCount + 1, ms := 1#3 }) := by
  by_cases h : s.ni = 255#8
  · exact .inr ⟨h, by simp [gapEnd, h]⟩
  · exact .inl ⟨h, by simp [gapEnd, h]⟩

/-! ### The mappings -/

theorem countFree_stated (s : State) : countFree s true = s.freeCount := rfl

theorem countFree_free (s : State) : countFree s false = s.freeCount + 1 := rfl

theorem readingsOk_iff (s : State) (x y : Reading) :
    readingsOk s x y = true ↔ x.toNat < s.cfg.period ∧ y.toNat < s.cfg.period := by
  simp [readingsOk, readingOk_iff]

/-- Each cursor coordinate is the stated one where its own reading is below PERIOD, whatever the other is (R114). -/
theorem cursorOf_axis (s : State) (x y : Reading) :
    (x.toNat < s.cfg.period → (cursorOf s x y).1 = (mapToDisplay s.cfg x y).1) ∧
    (y.toNat < s.cfg.period → (cursorOf s x y).2 = (mapToDisplay s.cfg x y).2) := by
  constructor <;> intro h <;> simp [cursorOf, (readingOk_iff _ _).mpr h]

/-- The row is the stated one where `y` is below PERIOD, the column where `x` is (R119). -/
theorem cellOf_axis (s : State) (x y : Reading) :
    (y.toNat < s.cfg.period → (cellOf s x y).1 = (mapToMatrix s.cfg x y).1) ∧
    (x.toNat < s.cfg.period → (cellOf s x y).2 = (mapToMatrix s.cfg x y).2) := by
  constructor <;> intro h <;> simp [cellOf, (readingOk_iff _ _).mpr h]

/-- A cell of the grid has the serpentine index of R131 and draws no free value. -/
theorem indexOf_stated {s : State} {r c : BitVec 4} (hr : r.toNat ≤ 4) (hc : c.toNat ≤ 4) :
    indexOf s r c = serpIndex r.toNat c.toNat ∧ countFree s (serpRowOk r && serpColOk c) = s.freeCount := by
  simp [indexOf, countFree, serpRowOk, serpColOk, hr, hc]

/-- Readings below PERIOD have the cursor position of R111 and draw no free value. -/
theorem cursorOf_stated {s : State} {x y : Reading} (h : readingsOk s x y = true) :
    cursorOf s x y = mapToDisplay s.cfg x y ∧ countFree s (readingsOk s x y) = s.freeCount := by
  have h' := h
  simp only [readingsOk, Bool.and_eq_true] at h'
  simp [cursorOf, countFree, h, h'.1, h'.2]

/-- Readings below PERIOD have the matrix cell of R115 and draw no free value. -/
theorem cellOf_stated {s : State} {x y : Reading} (h : readingsOk s x y = true) :
    cellOf s x y = mapToMatrix s.cfg x y ∧ countFree s (readingsOk s x y) = s.freeCount := by
  have h' := h
  simp only [readingsOk, Bool.and_eq_true] at h'
  simp [cellOf, countFree, h, h'.1, h'.2]

/-! ### Tone arithmetic -/

theorem toneHalf_bounds {f : Nat} (h1 : 1 ≤ f) (h2 : f ≤ 65535) : 7 ≤ toneHalf f ∧ toneHalf f ≤ 500000 := by
  unfold toneHalf floorDiv
  constructor
  · rw [Nat.le_div_iff_mul_le (by omega)]; omega
  · exact Nat.div_le_self _ _

theorem toneCycles_lt {f d : Nat} (h1 : f ≤ 65535) (h2 : d ≤ 65535) : toneCycles f d < 2 ^ 32 := by
  unfold toneCycles floorDiv
  have : f * d ≤ 65535 * 65535 := Nat.mul_le_mul h1 h2
  omega

/-! ### Time -/

/-- Time passes or it does not: MAIN enabled, or the clock moves by `freeRun`. -/
theorem passTime_cases (s : State) :
    (mainEnabled s = true ∧ passTime s = s) ∨
    (mainEnabled s = false ∧ passTime s = { s with T := s.T + freeRun s, adv := s.adv - freeRun s }) := by
  cases h : mainEnabled s
  · exact .inr ⟨rfl, by simp [passTime, h]⟩
  · exact .inl ⟨rfl, by simp [passTime, h]⟩

theorem freeRun_le (s : State) : freeRun s ≤ s.adv := by
  unfold freeRun; split
  · exact Nat.min_le_left _ _
  · exact Nat.le_refl _

/-- Time does not run past the deadline of a wait. -/
theorem freeRun_deadline {s : State} (hw : waitingPair s = true) : freeRun s ≤ s.dl - s.T := by
  simp only [freeRun, hw, if_true]
  exact Nat.min_le_right _ _

/-- MAIN not enabled, live and in a waiting pair: the deadline lies ahead. -/
theorem waiting_ahead {s : State} (h : mainEnabled s = false) (hh : s.held = false) (hw : waitingPair s = true) :
    s.T < s.dl := by
  simp [mainEnabled, hh, hw, deadlineMet] at h
  exact h.2

/-! ### The step function -/

/-- Everything a step that answers can be. -/
theorem step_cases {s t : State} (h : step s = .next t) :
    (chooseStep s = .idle ∧ t = s) ∨ (chooseStep s = .time ∧ t = passTime s) ∨
    (chooseStep s = .main ∧ mainStep s = .next t) ∨ (chooseStep s = .stimulus ∧ stimulusStep s = .next t) := by
  unfold step at h
  split at h
  · rename_i hc; exact .inr (.inr (.inr ⟨hc, h⟩))
  · rename_i hc; exact .inr (.inr (.inl ⟨hc, h⟩))
  · rename_i hc; cases h; exact .inr (.inl ⟨hc, rfl⟩)
  · rename_i hc; cases h; exact .inl ⟨hc, rfl⟩

theorem chooseStep_main {s : State} (h : chooseStep s = .main) : mainEnabled s = true := by
  unfold chooseStep at h
  split at h
  · cases h
  · split at h
    · assumption
    · split at h
      · cases h
      · split at h <;> cases h

theorem chooseStep_time {s : State} (h : chooseStep s = .time) : mainEnabled s = false ∧ s.adv ≠ 0 := by
  unfold chooseStep at h
  split at h
  · cases h
  · split at h
    · cases h
    · rename_i he
      split at h
      · rename_i ha; exact ⟨by simpa using he, ha⟩
      · split at h <;> cases h

/-- With nothing pending in the trace, MAIN's enabled step is what a step is. -/
theorem step_main {s : State} (ht : s.trace = []) (he : mainEnabled s = true) :
    step s = mainStep s := by
  simp [step, chooseStep, preempts, ht, he]

/-- With nothing pending in the trace, an advance passes time where MAIN waits. -/
theorem step_time {s : State} (ht : s.trace = []) (he : mainEnabled s = false)
    (ha : s.adv ≠ 0) : step s = .next (passTime s) := by
  simp [step, chooseStep, preempts, ht, he, ha]

theorem countLead_nil {s : State} (ht : s.trace = []) : countLead s = s := by
  have h : (countLead s).trace = s.trace := by simp only [countLead, ht]; cases s.adv <;> rfl
  show { s with trace := (countLead s).trace } = s
  rw [h]

/-- MAIN's step with nothing pending in the trace. -/
theorem mainStep_eq {s : State} {i : Instr} (ht : s.trace = []) (hd : decode (.phase s.ph) = .ok i) :
    mainStep s = exec i s := by
  simp only [mainStep, hd, countLead_nil ht]

/-- A stimulus step that answers runs the decoded head of the trace, or there is none. -/
theorem stimulusStep_next {s t : State} (h : stimulusStep s = .next t) :
    (s.trace = [] ∧ t = s) ∨
    ∃ st rest i, s.trace = st :: rest ∧ decode (.stim st.word) = .ok i ∧ exec i { s with trace := rest } = .next t := by
  unfold stimulusStep at h
  split at h
  · rename_i ht; cases h; exact .inl ⟨ht, rfl⟩
  · rename_i st rest ht
    split at h
    · rename_i i hd
      refine .inr ⟨st, rest, i, ht, hd, ?_⟩
      simpa [dropStimulus, ht] using h
    · cases h

/-- MAIN's step that answers is the operation at `ph`. -/
theorem mainStep_next {s t : State} (h : mainStep s = .next t) :
    ∃ i, decode (.phase s.ph) = .ok i ∧ exec i (countLead s) = .next t := by
  unfold mainStep at h
  split at h
  · rename_i i hd; exact ⟨i, hd, h⟩
  · cases h

end Sys2Proof.Machine
end

