-- ==== Sys2Proof/Laws/PerInstr.lean ====
section
/-! SUPPORT. The family EncodeFormat: every operation's code has the format of its row of spec/opcode_table.json, STIM in 32 bits,
PHASE in 4, MSTATE in 3, a FUNC row the PHASE code of its carrier (30_encoding.md R80, R98). -/

namespace Sys2Proof.Laws

/-- The bits a code occupies. -/
def codeWidth : Code → Nat
  | .stim _ => 32
  | .phase _ => 4
  | .mstate _ => 3

/-- The bits the opcode table gives the operation's row. -/
def tableWidth : Instr → Nat
  | .rst => 32
  | .adv _ => 32
  | .btnA => 32
  | .btnB => 32
  | .joy _ _ => 32
  | .phInit => 4
  | .phRgb => 4
  | .phSample => 4
  | .phMapd => 4
  | .phMapm => 4
  | .phDz => 4
  | .phMbuf => 4
  | .phMsend => 4
  | .phDraw => 4
  | .phSvc1 => 4
  | .phSvc2 => 4
  | .phSvc3 => 4
  | .phPlay => 4
  | .phSleep => 4
  | .mIdle => 3
  | .mFetch => 3
  | .mHigh => 3
  | .mLow => 3
  | .mRest => 3
  | .mGap => 3
  | .mapToDisplay _ _ => 4
  | .mapToMatrix _ _ => 4
  | .buildMatrixBuffer _ _ _ => 4
  | .serp _ _ => 4
  | .play _ => 4

namespace EncodeFormat

/-- The code of the operation has its row's width. -/
def Statement (i : Instr) : Prop := codeWidth (encode i) = tableWidth i

theorem rst : Statement .rst := rfl
theorem adv (n : BitVec 28) : Statement (.adv n) := rfl
theorem btnA : Statement .btnA := rfl
theorem btnB : Statement .btnB := rfl
theorem joy (x y : Reading) : Statement (.joy x y) := rfl
theorem phInit : Statement .phInit := rfl
theorem phRgb : Statement .phRgb := rfl
theorem phSample : Statement .phSample := rfl
theorem phMapd : Statement .phMapd := rfl
theorem phMapm : Statement .phMapm := rfl
theorem phDz : Statement .phDz := rfl
theorem phMbuf : Statement .phMbuf := rfl
theorem phMsend : Statement .phMsend := rfl
theorem phDraw : Statement .phDraw := rfl
theorem phSvc1 : Statement .phSvc1 := rfl
theorem phSvc2 : Statement .phSvc2 := rfl
theorem phSvc3 : Statement .phSvc3 := rfl
theorem phPlay : Statement .phPlay := rfl
theorem phSleep : Statement .phSleep := rfl
theorem mIdle : Statement .mIdle := rfl
theorem mFetch : Statement .mFetch := rfl
theorem mHigh : Statement .mHigh := rfl
theorem mLow : Statement .mLow := rfl
theorem mRest : Statement .mRest := rfl
theorem mGap : Statement .mGap := rfl
theorem mapToDisplay (x y : Reading) : Statement (.mapToDisplay x y) := rfl
theorem mapToMatrix (x y : Reading) : Statement (.mapToMatrix x y) := rfl
theorem buildMatrixBuffer (row col : BitVec 4) (colour : Word) : Statement (.buildMatrixBuffer row col colour) := rfl
theorem serp (r c : BitVec 4) : Statement (.serp r c) := rfl
theorem play (k : MelodyNo) : Statement (.play k) := rfl

end EncodeFormat

end Sys2Proof.Laws
end

