-- ==== Sys2Proof/Tests/Slice0.lean ====
section
/-! SUPPORT. Small tests: words written out from 30_encoding.md, the examples of the rules and the vectors of 95_test_vectors.md, each one
step; then, for every statement with hypotheses, a witness that meets them. -/

namespace Sys2Proof.Tests

open Sys2Proof Sys2Proof.Machine

/-! ### A configuration and small states -/

/-- The test configuration of 95_test_vectors.md (its colours and melodies). -/
def tc : Config :=
  { legalPeriod := ⟨4096, by decide⟩, rowVariant := .double, melreqClear := .start, rgbEnReset := true,
    legalColour1 := ⟨0x00FF0000#32, rfl⟩, legalColour2 := ⟨0x0000FF00#32, rfl⟩, legalColour3 := ⟨0x000000FF#32, rfl⟩,
    legalMel1 := ⟨[0x01B80064#32, 0x00000032#32, 0x03700064#32], by decide⟩, legalMel2 := ⟨[0x03E8000A#32], by decide⟩,
    legalMel3 := ⟨[0x0000001E#32, 0x00FA0008#32], by decide⟩ }

/-- Right after RST with the joystick at rest. -/
def base : State := State.afterRst tc 2048#14 2048#14 []

/-- At phase `p`, at time `t`. -/
def atPhase (p : BitVec 4) (t : Nat) : State := { base with ph := p, T := t }

/-- In PH_PLAY with code `c`, melody code `m`, entry `n`, at time `t` with deadline `d`. -/
def playing (c : BitVec 3) (m : BitVec 2) (n : BitVec 8) (t d : Nat) : State :=
  { base with ph := 12#4, ms := c, mel := m, ni := n, T := t, dl := d }

/-- The outcome is a next state with a property. -/
def holds (o : Result) (p : State → Bool) : Bool :=
  match o with
  | .next t => p t
  | _ => false

/-- The outcome is this refusal. -/
def refusedWith (o : Result) (r : Refusal) : Bool :=
  match o with
  | .refused q => decide (q = r)
  | _ => false

/-- The horizontal coordinate, and the row, that a contract function returned. -/
def resultCurX (s : State) : Option (BitVec 8) :=
  match s.fnResult with
  | some (.cursor x _) => some x
  | _ => none
def resultRow (s : State) : Option (BitVec 4) :=
  match s.fnResult with
  | some (.cell row _) => some row
  | _ => none

/-! ### Well-formedness: an ill-formed term for each check -/

theorem test_wellFormed_refuses_row : (Instr.serp 5#4 0#4).wellFormed = false := by decide
theorem test_wellFormed_refuses_col : (Instr.serp 0#4 5#4).wellFormed = false := by decide
theorem test_wellFormed_accepts_corner : (Instr.serp 4#4 4#4).wellFormed = true := by decide

/-! ### Words written out from 30_encoding.md R82 to R87 -/

theorem test_decode_rst : decode (.stim 0b00000000000000000000000000000000#32) = .ok .rst := by decide
theorem test_decode_adv : decode (.stim 0b00010000000000001100001101010000#32) = .ok (.adv 50000#28) := by decide
theorem test_decode_btnA : decode (.stim 0b00100000000000000000000000000000#32) = .ok .btnA := by decide
theorem test_decode_btnB : decode (.stim 0b00100000000000000000000000000001#32) = .ok .btnB := by decide
theorem test_decode_joy : decode (.stim 0b00110010000000000000100000000000#32) = .ok (.joy 2048#14 2048#14) := by decide
theorem test_decode_joy_fields : decode (.stim 0x33FFC000#32) = .ok (.joy 4095#14 0#14) := by decide
theorem test_decode_phases :
    [0b0000#4, 0b0001#4, 0b0010#4, 0b0011#4, 0b0100#4, 0b0101#4, 0b0110#4, 0b0111#4, 0b1000#4, 0b1001#4, 0b1010#4, 0b1011#4,
      0b1100#4, 0b1101#4].map (fun c => acceptedInstr (decode (.phase c))) =
    [some .phInit, some .phRgb, some .phSample, some .phMapd, some .phMapm, some .phDz, some .phMbuf, some .phMsend,
      some .phDraw, some .phSvc1, some .phSvc2, some .phSvc3, some .phPlay, some .phSleep] := by decide
theorem test_decode_mstates :
    [0b000#3, 0b001#3, 0b010#3, 0b011#3, 0b100#3, 0b101#3].map (fun c => acceptedInstr (decode (.mstate c))) =
    [some .mIdle, some .mFetch, some .mHigh, some .mLow, some .mRest, some .mGap] := by decide
theorem test_decode_reserved :
    decode (.stim 0x00000001#32) = .error .reservedRstArg ∧ decode (.stim 0x20000002#32) = .error .reservedBtnArg ∧
    decode (.stim 0x40000000#32) = .error .reservedOpcode ∧ decode (.stim 0xFFFFFFFF#32) = .error .reservedOpcode ∧
    decode (.phase 0b1110#4) = .error .reservedPhase ∧ decode (.mstate 0b110#3) = .error .reservedMState := by decide

/-- The FUNC rows have the code of the phase that computes them (R98). -/
theorem test_encode_func :
    encode (.mapToDisplay 1#14 2#14) = .phase 0b0011#4 ∧ encode (.mapToMatrix 1#14 2#14) = .phase 0b0100#4 ∧
    encode (.buildMatrixBuffer 1#4 2#4 3#32) = .phase 0b0110#4 ∧ encode (.serp 1#4 2#4) = .phase 0b0110#4 ∧
    encode (.play .one) = .phase 0b1100#4 := by decide

theorem test_decodeTableWord :
    decodeTableWord 32 0x20000001 = some .btnB ∧ decodeTableWord 8 0b1101 = some .phSleep ∧
    decodeTableWord 3 0b101 = some .mGap ∧ decodeTableWord 32 0x40000000 = none := by decide

/-- Trace syntax and pseudo-operations (R96, R97). -/
theorem test_assemble :
    assemble tc "RST ; start\nADVMS 50\nPRESS B\nJOY 0x10, 4095\nCENTER\nTICKS 2" =
      some [.rst, .adv 50000#28, .btnB, .joy 16#14 4095#14, .joy 2048#14 2048#14, .adv 100000#28] := by decide
theorem test_assemble_bounds : assemble tc "ADVMS 268436" = none ∧ assemble tc "TICKS 5369" = none := by decide

/-! ### One step each -/

/-- R43. -/
theorem test_rst :
    holds (exec .rst { playing 2#3 1#2 1#8 9 9 with sel := 2#2, buzz := true, mbuf := [(3, 5#32)] })
      (fun t => t.T == 0 && t.ph == 0#4 && t.sel == 0#2 && !t.buzz && t.mbuf == [] && t.inX == 2048#14) = true := by decide

/-- R208's example: the second tick begins at 50 000; a longer advance stops there and keeps the rest. -/
theorem test_adv :
    holds (exec (.adv 60000#28) { atPhase 13#4 0 with dl := 50000 })
      (fun t => t.T == 50000 && t.adv == 10000 && mainEnabled t) = true := by decide
theorem test_adv_held : refusedWith (exec (.adv 1#28) State.powerOn) .heldInReset = true := by decide

/-- Vector V5: an edge exactly 200 000 us after the last accepted one is accepted, one earlier is not. -/
theorem test_btnA_accepted :
    holds (exec .btnA { atPhase 13#4 200000 with ledB := true })
      (fun t => !t.rgbEn && !t.ledB && t.out == [⟨200000, .acc .a⟩, ⟨200000, .led false false false⟩]) = true := by decide
theorem test_btnA_rejected :
    holds (exec .btnA (atPhase 13#4 199999)) (fun t => t.rgbEn && t.debLast == 0 && t.out == [⟨199999, .rej .a⟩]) = true := by
  decide

/-- R164: the value before the increment acts. -/
theorem test_btnB_wraps :
    holds (exec .btnB { atPhase 13#4 200000 with sel := 2#2 })
      (fun t => t.sel == 0#2 && t.colSel == 2#2 && t.melreq3 && !t.melreq1) = true := by decide
theorem test_btnB_reserved : refusedWith (exec .btnB { atPhase 13#4 200000 with sel := 3#2 }) .reservedSel = true := by decide

/-- R210. -/
theorem test_joy : holds (exec (.joy 4095#14 7#14) base) (fun t => t.inX == 4095#14 && t.inY == 7#14) = true := by decide
theorem test_joy_refused : refusedWith (exec (.joy 0#14 4096#14) base) .readingOutOfRange = true := by decide

/-- R273's example. -/
theorem test_phInit :
    holds (exec .phInit { base with inX := 2050#14, inY := 2040#14 })
      (fun t => t.calX == 2050#14 && t.calY == 2040#14 && t.ph == 1#4) = true := by decide

/-- R147's example. -/
theorem test_phRgb_fires :
    holds (exec .phRgb (atPhase 1#4 300000))
      (fun t => t.ledB && !t.ledR && t.rgbState == 1#2 && t.rgbLast == 300000 && t.out == [⟨300000, .led false false true⟩]) =
      true := by decide
theorem test_phRgb_not_due :
    holds (exec .phRgb { atPhase 1#4 599999 with rgbLast := 300000, ledB := true, rgbState := 1#2 })
      (fun t => t.ledB && t.rgbState == 1#2 && t.rgbLast == 300000 && t.out == []) = true := by decide

/-- R214's example. -/
theorem test_phSample :
    holds (exec .phSample { atPhase 2#4 0 with inX := 100#14, inY := 4000#14 })
      (fun t => t.rdX == 100#14 && t.rdY == 4000#14 && t.ph == 3#4) = true := by decide

/-- R112's example and corner cases. -/
theorem test_phMapd :
    holds (exec .phMapd { atPhase 3#4 0 with rdX := 2048#14, rdY := 2048#14 })
      (fun t => t.curX == 60#8 && t.curY == 28#8) = true := by decide
theorem test_phMapd_corners :
    holds (exec .phMapd { atPhase 3#4 0 with rdX := 0#14, rdY := 4095#14 })
      (fun t => t.curX == 4#8 && t.curY == 52#8) = true := by decide

/-- R116's example and off-grid corner case. -/
theorem test_phMapm :
    holds (exec .phMapm { atPhase 4#4 0 with rdX := 2048#14, rdY := 2048#14 })
      (fun t => t.cellRow == 2#4 && t.cellCol == 2#4) = true := by decide
theorem test_phMapm_off_grid :
    holds (exec .phMapm { atPhase 4#4 0 with rdX := 4095#14, rdY := 0#14 })
      (fun t => t.cellRow == 0b1111#4 && t.cellCol == 4#4) = true := by decide

/-- R120's example: 250 is not movement, 251 is. -/
theorem test_phDz :
    holds (exec .phDz { atPhase 5#4 0 with calX := 2048#14, calY := 2048#14, rdX := 2298#14, rdY := 1797#14 })
      (fun t => !t.movX && t.movY) = true := by decide

/-- R133's example, and its off-grid corner case. -/
theorem test_phMbuf :
    holds (exec .phMbuf { atPhase 6#4 0 with cellRow := 2#4, cellCol := 2#4, mbuf := [(3, 5#32)] })
      (fun t => memRead t.mbuf 12 == 0x00FF0000#32 && memRead t.mbuf 3 == 0#32) = true := by decide
theorem test_phMbuf_off_grid :
    holds (exec .phMbuf { atPhase 6#4 0 with cellRow := 0b1111#4, mbuf := [(3, 5#32)] }) (fun t => t.mbuf == []) = true := by decide

/-- R135: words in index order. -/
theorem test_phMsend :
    holds (exec .phMsend { atPhase 7#4 0 with mbuf := [(24, 9#32)] })
      (fun t => t.out == [⟨0, .mx (List.replicate 24 0#32 ++ [9#32])⟩]) = true := by decide

/-- R215's example. -/
theorem test_phDraw :
    holds (exec .phDraw { atPhase 8#4 0 with curX := 60#8, curY := 28#8 })
      (fun t => t.out == [⟨0, .draw 60#8 28#8⟩] && t.ph == 9#4) = true := by decide

/-- R216's example; R217's; R218's. -/
theorem test_phSvc1 :
    holds (exec .phSvc1 { atPhase 9#4 0 with melreq1 := true }) (fun t => !t.melreq1 && t.mel == 1#2 && t.ph == 12#4) = true := by
  decide
theorem test_phSvc2 : holds (exec .phSvc2 (atPhase 10#4 0)) (fun t => t.ph == 11#4) = true := by decide
theorem test_phSvc3 : holds (exec .phSvc3 (atPhase 11#4 100000)) (fun t => t.ph == 13#4 && t.dl == 150000) = true := by decide

/-- R181: the code in `ms` selects the step. -/
theorem test_phPlay : holds (exec .phPlay (playing 4#3 1#2 1#8 169968 169968)) (fun t => t.ms == 5#3) = true := by decide
theorem test_phPlay_stuck : refusedWith (exec .phPlay (playing 0#3 1#2 0#8 0 0)) .noMainStep = true := by decide

/-- R219's example. -/
theorem test_phSleep : holds (exec .phSleep { atPhase 13#4 50000 with dl := 50000 }) (fun t => t.ph == 1#4) = true := by decide
theorem test_phSleep_waits : holds (exec .phSleep { atPhase 13#4 49999 with dl := 50000 }) (fun t => t.ph == 13#4) = true := by
  decide

theorem test_mIdle : holds (exec .mIdle base) (fun t => decide (t = base)) = true := by decide

/-- R183's example (440 Hz, 100 ms), and the end of a melody. -/
theorem test_mFetch :
    holds (exec .mFetch (playing 1#3 1#2 0#8 7 0))
      (fun t => t.cyc == 44#32 && t.half == 1136#19 && t.buzz && t.dl == 1143 && t.ms == 2#3) = true := by decide
theorem test_mFetch_end :
    holds (exec .mFetch (playing 1#3 1#2 3#8 7 0))
      (fun t => t.ph == 10#4 && t.mel == 0#2 && t.ms == 0#3 && t.out == [⟨7, .melEnd .one⟩]) = true := by decide

/-- R188's example; R189's; R190's; R192. -/
theorem test_mHigh :
    holds (exec .mHigh { playing 2#3 1#2 0#8 1136 1136 with half := 1136#19, buzz := true })
      (fun t => !t.buzz && t.dl == 2272 && t.ms == 3#3) = true := by decide
theorem test_mLow :
    holds (exec .mLow { playing 3#3 1#2 0#8 99968 99968 with cyc := 1#32 })
      (fun t => t.cyc == 0#32 && t.dl == 119968 && t.ms == 5#3 && !t.buzz) = true := by decide
theorem test_mLow_again :
    holds (exec .mLow { playing 3#3 1#2 0#8 2272 2272 with cyc := 44#32, half := 1136#19 })
      (fun t => t.cyc == 43#32 && t.dl == 3408 && t.ms == 2#3 && t.buzz) = true := by decide
theorem test_mRest : holds (exec .mRest (playing 4#3 1#2 1#8 169968 169968)) (fun t => t.dl == 189968 && t.ms == 5#3) = true := by
  decide
theorem test_mGap :
    holds (exec .mGap (playing 5#3 1#2 1#8 9 9)) (fun t => t.ni == 2#8 && t.ms == 1#3 && t.freeCount == 0) = true := by decide

/-- `ni + 1` does not fit (log entry 19): the step completes all the same. -/
theorem test_mGap_free : holds (exec .mGap (playing 5#3 1#2 255#8 9 9)) (fun t => t.ms == 1#3 && t.freeCount == 1) = true := by
  decide

/-- The contract functions on the examples of R112, R116, R131, R133. -/
theorem test_mapToDisplay :
    holds (exec (.mapToDisplay 2048#14 2048#14) base) (fun t => t.fnResult == some (.cursor 60#8 28#8)) = true := by decide
theorem test_mapToMatrix :
    holds (exec (.mapToMatrix 2048#14 0#14) base) (fun t => t.fnResult == some (.cell 0b1111#4 2#4)) = true := by decide

/-- A reading at or above PERIOD leaves the other axis as stated (R114, R119; log entry 18). -/
theorem test_mapToDisplay_free :
    holds (exec (.mapToDisplay 2048#14 4096#14) base)
      (fun t => t.freeCount == 1 && resultCurX t == some 60#8) = true := by decide
theorem test_mapToMatrix_free :
    holds (exec (.mapToMatrix 4096#14 0#14) base)
      (fun t => t.freeCount == 1 && resultRow t == some 0b1111#4) = true := by decide
theorem test_buildMatrixBuffer :
    holds (exec (.buildMatrixBuffer 0#4 4#4 7#32) base)
      (fun t => t.fnResult == some (.buffer (7#32 :: List.replicate 24 0#32))) = true := by decide
theorem test_serp : holds (exec (.serp 3#4 2#4) base) (fun t => t.fnResult == some (.index 17)) = true := by decide
theorem test_serp_free :
    holds (exec (.serp 5#4 0#4) base) (fun t => t.freeCount == 1 && t.fnResult.isSome) = true := by decide
theorem test_play : holds (exec (.play .two) base) (fun t => t.mel == 2#2 && t.ms == 1#3 && t.ph == 12#4) = true := by decide

/-! ### The step function and the placing of an operation -/

/-- 46_main_sequencer.md R207: an edge between PH_MBUF and PH_MSEND. -/
theorem test_step_edge_between_main_steps :
    holds (step { atPhase 7#4 200000 with trace := [⟨0x20000001#32, some 0⟩] })
      (fun t => t.ph == 7#4 && t.melreq1 && t.trace == []) = true := by decide
theorem test_step_waits_for_quiescence :
    holds (step { atPhase 7#4 200000 with trace := [⟨0x20000001#32, none⟩] }) (fun t => t.ph == 8#4 && !t.melreq1) = true := by
  decide
theorem test_step_reserved_word :
    refusedWith (step { atPhase 13#4 0 with dl := 9, trace := [⟨0x40000000#32, none⟩] }) .reservedStimulus = true := by decide

/-- From reset, with the operation placed, the next step runs it. -/
theorem test_withFetchWord :
    holds (step (State.reset.withFetchWord 32 0x10000005)) (fun t => t.adv == 5) = true ∧
    holds (step (State.reset.withFetchWord 32 0x30000000)) (fun t => t.inX == 0#14) = true ∧
    holds (step (State.reset.withFetchWord 8 1)) (fun t => t.ph == 2#4) = true ∧
    holds (step (State.reset.withFetchWord 8 12)) (fun t => t.ms == 5#3) = true ∧
    holds (step (State.reset.withFetchWord 8 13)) (fun t => t.ph == 1#4) = true ∧
    holds (step (State.reset.withFetchWord 3 5)) (fun t => t.ni == 1#8) = true := by decide
theorem test_reset_memory_wf : Memory.wf State.reset.mbuf = true := by decide

/-! ### Concrete states that keep the invariants -/

/-- The invariant as a computed fact: a claim over all melodies is its three cases. -/
def invFacts (s : State) : Bool :=
  decide (s.held = true → s.adv = 0) &&
  (decide (s.sel ≠ 3#2) && decide (s.rgbState ≠ 3#2) && decide (s.colSel ≠ 3#2) &&
    decide (Memory.wf s.mbuf = true ∧ s.mbuf.length ≤ 1) && ledsOneHot s &&
    decide (s.ph.toNat ≤ 13) && decide (s.ms.toNat ≤ 5) && decide (s.debLast ≤ s.T) && decide (s.rgbLast ≤ s.T)) &&
  (decide (s.mel = 0#2 ↔ s.ms = 0#3) && decide (s.ms = 0#3 ↔ s.ph ≠ 12#4) && decide (s.buzz = true ↔ s.ms = 2#3) &&
    decide (s.mel = 1#2 → s.ni.toNat ≤ melodyLen s.cfg .one) && decide (s.mel = 2#2 → s.ni.toNat ≤ melodyLen s.cfg .two) &&
    decide (s.mel = 3#2 → s.ni.toNat ≤ melodyLen s.cfg .three) &&
    decide (s.mel = 1#2 → 2 ≤ s.ms.toNat → s.ni.toNat < melodyLen s.cfg .one) &&
    decide (s.mel = 2#2 → 2 ≤ s.ms.toNat → s.ni.toNat < melodyLen s.cfg .two) &&
    decide (s.mel = 3#2 → 2 ≤ s.ms.toNat → s.ni.toNat < melodyLen s.cfg .three) &&
    decide (s.ms = 2#3 ∨ s.ms = 3#3 → s.cyc ≠ 0#32) &&
    decide (s.ms = 2#3 ∨ s.ms = 3#3 → 7 ≤ s.half.toNat ∧ s.half.toNat ≤ 500000) && decide (s.dl ≤ s.T + 65535000)) &&
  (decide (s.inX.toNat < s.cfg.period ∧ s.inY.toNat < s.cfg.period) && decide (s.calX.toNat < s.cfg.period ∧ s.calY.toNat < s.cfg.period) &&
    decide (s.rdX.toNat < s.cfg.period ∧ s.rdY.toNat < s.cfg.period) && decide (s.curX.toNat ≤ 116 ∧ s.curY.toNat ≤ 52) &&
    decide (-1 ≤ s.cellRow.toInt ∧ s.cellRow.toInt ≤ 4 ∧ s.cellCol.toNat ≤ 4) &&
    decide (s.rgbEn = false → s.ledR = false ∧ s.ledG = false ∧ s.ledB = false))

theorem code_of_melody {v : BitVec 2} {k : MelodyNo} (h : melodyOfCode v = some k) : v = melodyCode k := by
  revert h; revert k v; intro v k; cases k <;> revert v <;> decide

theorem blockInv_of_facts {s : State} (h : invFacts s = true) : BlockInv s := by
  simp only [invFacts, Bool.and_eq_true, decide_eq_true_eq, and_assoc] at h
  obtain ⟨h1, a1, a2, a3, a4, a4', a5, a6, a7, a8, a9, b1, b2, b3, c1, c2, c3, d1, d2, d3, b6, b7, b8, e1, e1', e2, e2', e3, e3', e4,
    e4', e5, e5', e5'', e6⟩ := h
  refine ⟨h1, ⟨a1, a2, a3, ⟨a4, a4'⟩, a5, a6, a7, a8, a9⟩, ⟨b1, b2, b3, ?_, ?_, b6, b7, b8⟩,
    ⟨⟨e1, e1'⟩, ⟨e2, e2'⟩, ⟨e3, e3'⟩, ⟨e4, e4'⟩, ⟨e5, e5', e5''⟩, e6⟩⟩
  · intro k hk
    have := code_of_melody hk
    cases k
    · exact c1 this
    · exact c2 this
    · exact c3 this
  · intro k hk
    have := code_of_melody hk
    cases k
    · exact d1 this
    · exact d2 this
    · exact d3 this

/-! ### Witnesses: for each statement with hypotheses, values that meet them, at the ends of their ranges -/

theorem witness_DecodeEncodeRoundTrip :
    (Instr.joy 16383#14 0#14).wellFormed = true ∧ (Instr.joy 16383#14 0#14).hasOwnCode = true ∧
    (Instr.serp 4#4 4#4).wellFormed = true ∧ (Instr.serp 4#4 4#4).hasOwnCode = false := by decide

theorem witness_EncodeDecodeRoundTrip : decode (.stim 0x1FFFFFFF#32) = .ok (.adv 0xFFFFFFF#28) := by decide

theorem witness_ReservedStimulusWordsExactly :
    [0x00000000#32, 0x00000001#32, 0x0FFFFFFF#32, 0x10000000#32, 0x20000001#32, 0x20000002#32, 0x2FFFFFFF#32, 0x30000000#32,
      0x3FFFFFFF#32, 0x40000000#32].map (fun w => (acceptedInstr (decode (.stim w))).isSome) =
    [true, false, false, true, true, false, false, true, true, false] := by decide

theorem witness_PseudoOperationsExpand :
    pseudoAdvms 268435 = some (.adv 268435000#28) ∧ pseudoTicks 5368 = some (.adv 268400000#28) ∧
    pseudoCenter tc = .joy 2048#14 2048#14 := by decide

/-- A quiescent point and a word that waits for it; a word with lead 0 where MAIN is enabled. -/
theorem witness_StepRunsTheStimulusWord :
    (mainEnabled { atPhase 13#4 0 with dl := 50000, trace := [⟨0x10000001#32, none⟩] } = false ∧
      decode (.stim 0x10000001#32) = .ok (.adv 1#28)) ∧
    (mainEnabled { atPhase 7#4 0 with trace := [⟨0x40000000#32, some 0⟩] } = true ∧
      decode (.stim 0x40000000#32) = .error .reservedOpcode) ∧ base.adv = 0 := by decide

/-- An advance under way, an empty trace, a word that waits, a word with a lead to count. -/
theorem witness_StepRunsThePhaseAtPh :
    mainEnabled { atPhase 7#4 0 with adv := 1, trace := [⟨0x20000000#32, some 0⟩] } = true ∧ mainEnabled (atPhase 7#4 0) = true ∧
    mainEnabled { atPhase 7#4 0 with trace := [⟨0x20000000#32, none⟩] } = true ∧
    mainEnabled { atPhase 7#4 0 with trace := [⟨0x20000000#32, some 1⟩] } = true ∧ decode (.phase 7#4) = .ok .phMsend := by decide

/-- A deadline inside the advance, at its end, no deadline, nothing left. -/
theorem witness_StepPassesTimeOrIdles :
    (mainEnabled { atPhase 13#4 0 with dl := 50000, adv := 50001 } = false ∧
      waitingPair { atPhase 13#4 0 with dl := 50000, adv := 50001 } = true) ∧
    mainEnabled { atPhase 13#4 0 with dl := 50000, adv := 50000 } = false ∧
    (mainEnabled { atPhase 14#4 0 with adv := 1 } = false ∧ waitingPair { atPhase 14#4 0 with adv := 1 } = false) ∧
    (mainEnabled State.powerOn = false ∧ State.powerOn.adv = 0 ∧ State.powerOn.trace = []) := by decide

theorem witness_HeldInResetBehaviour :
    State.powerOn.held = true ∧ (4095#14).toNat < State.powerOn.cfg.period := by decide

/-- MAIN enabled; a deadline before the end of the advance; at its end; no wait. -/
theorem witness_AdvPassesTimeUpToTheDeadline :
    (base.held = false ∧ mainEnabled base = true) ∧
    (mainEnabled { atPhase 13#4 0 with dl := 50000 } = false ∧ waitingPair { atPhase 13#4 0 with dl := 50000 } = true ∧
      50000 < 0 + (50001#28).toNat ∧ ¬ 50000 < 0 + (50000#28).toNat) ∧
    mainEnabled (atPhase 14#4 0) = false := by decide

theorem witness_AdvAddsUp : base.held = false ∧ base.adv = 0 ∧ (268435454#28).toNat + (1#28).toNat < 2 ^ 28 := by decide

theorem witness_JoySetsTheInputLevels : (4095#14).toNat < base.cfg.period ∧ base.cfg.period ≤ (4096#14).toNat := by decide

theorem witness_DebounceGateDecidesOnElapsedTime :
    (atPhase 13#4 200000).held = false ∧ (200000 : Int) ≤ ((atPhase 13#4 200000).T : Int) - ((atPhase 13#4 200000).debLast : Int) ∧
    (atPhase 13#4 200000).sel ≠ 3#2 ∧
    ((atPhase 13#4 199999).T : Int) - ((atPhase 13#4 199999).debLast : Int) < 200000 := by decide

theorem witness_ButtonATogglesTheCycle :
    (atPhase 13#4 200000).held = false ∧ (atPhase 13#4 200000).debLast + 200000 ≤ (atPhase 13#4 200000).T := by decide

theorem witness_ButtonBSelectsAndRequests :
    (atPhase 13#4 200000).sel = 0#2 ∧ { atPhase 13#4 200000 with sel := 1#2 }.sel = 1#2 ∧
    { atPhase 13#4 200000 with sel := 2#2 }.debLast + 200000 ≤ { atPhase 13#4 200000 with sel := 2#2 }.T ∧
    { atPhase 13#4 200000 with sel := 3#2 }.held = false := by decide

theorem witness_GateIsATwoStateMachine :
    (gateState (atPhase 13#4 200000) = .ready ∧ holds (exec .btnA (atPhase 13#4 200000)) (fun _ => true) = true) ∧
    (gateState (atPhase 13#4 199999) = .lockout ∧ holds (exec .btnB (atPhase 13#4 199999)) (fun _ => true) = true) ∧
    base.debLast ≤ base.T := by decide

theorem witness_SelectionSequenceOverFivePresses :
    holds (exec .btnB { State.afterRst tc 2048#14 2048#14 [] with T := 0 + 200000 }) (fun _ => true) = true := by decide

theorem witness_InitAndSampleLatchTheInputs : base.held = false := by decide

theorem witness_ColourCycleStep :
    ((atPhase 1#4 300000).rgbEn = true ∧ (300000 : Int) ≤ ((atPhase 1#4 300000).T : Int) - ((atPhase 1#4 300000).rgbLast : Int) ∧
      (atPhase 1#4 300000).rgbState = 0#2 ∧ { atPhase 1#4 300000 with rgbState := 1#2 }.held = false ∧
      { atPhase 1#4 300000 with rgbState := 2#2 }.held = false ∧ { atPhase 1#4 300000 with rgbState := 3#2 }.held = false) ∧
    ((atPhase 1#4 299999).T : Int) - ((atPhase 1#4 299999).rgbLast : Int) < 300000 ∧
    { atPhase 1#4 0 with rgbEn := false }.rgbEn = false := by decide

theorem witness_DisplayMappingOfTheReading :
    { atPhase 3#4 0 with rdX := 4095#14 }.held = false ∧ (4095#14).toNat < (atPhase 3#4 0).cfg.period ∧
    (0#14).toNat < (atPhase 3#4 0).cfg.period := by decide

/-- The four bounds of R113 at PERIOD = 4096, on either side. -/
theorem witness_DisplayClampTakesHoldExactly :
    ((287#14).toNat * 128 < 9 * tc.period ∧ ¬ (288#14).toNat * 128 < 9 * tc.period) ∧
    (120 * tc.period ≤ (3840#14).toNat * 128 ∧ ¬ 120 * tc.period ≤ (3839#14).toNat * 128) ∧
    ((575#14).toNat * 64 < 9 * tc.period ∧ 56 * tc.period ≤ (3584#14).toNat * 64) ∧ (4095#14).toNat < tc.period := by decide

theorem witness_DisplayMappingMonotoneAndBounded : (0#14).toNat ≤ (4095#14).toNat ∧ (4095#14).toNat < tc.period := by decide

theorem witness_MatrixMappingOfTheReading :
    (atPhase 4#4 0).cfg.rowVariant = .double ∧ { tc with rowVariant := .single }.rowVariant = .single ∧
    (atPhase 4#4 0).held = false ∧ (4095#14).toNat < tc.period := by decide

theorem witness_OffGridOnlyAtReadingZero :
    tc.rowVariant = .double ∧ (0#14).toNat < tc.period ∧ 1 ≤ (1#14).toNat ∧ (4095#14).toNat < tc.period := by decide

theorem witness_RowVariantsMirrorEachOther :
    1 ≤ (1#14).toNat ∧ (1#14).toNat * 5 % tc.period ≠ 0 ∧ (4095#14).toNat * 5 % tc.period ≠ 0 ∧ (4095#14).toNat < tc.period := by
  decide

theorem witness_DeadzoneComparesWithTheCentre : (atPhase 5#4 0).held = false := by decide

/-- A corner of the grid, and the off-grid row. -/
theorem witness_MatrixBufferHoldsTheActiveCell :
    ({ atPhase 6#4 0 with colSel := 2#2 }.colSel = 2#2 ∧ { atPhase 6#4 0 with colSel := 3#2 }.held = false) ∧
    ((0 ≤ (4#4).toInt ∧ (4#4).toInt < 5 ∧ (4#4).toNat < 5) ∧ ¬ (0 ≤ (0b1111#4).toInt)) := by decide

theorem witness_MatrixIsSingleCellLit :
    (holds (exec .phMbuf { atPhase 6#4 0 with cellRow := 4#4, cellCol := 4#4 }) (fun _ => true) = true ∧ cellValid tc 4#4 4#4 = true) ∧
    (holds (exec .phMbuf { atPhase 6#4 0 with cellRow := 0b1111#4 }) (fun _ => true) = true ∧ cellValid tc 0b1111#4 0#4 = false) := by
  decide

theorem witness_SerpentineIndexIsABijection : (0 ≤ 4 ∧ 4 ≤ 4) ∧ serpIndex 4 0 = 24 ∧ serpIndex 0 0 = 4 := by decide

theorem witness_SendAndDrawEmitTheirEvents : (atPhase 7#4 0).held = false := by decide

theorem witness_ServiceSlotStartsTheMelodyOrPassesOn :
    { atPhase 9#4 0 with melreq1 := true }.melreq1 = true ∧ { atPhase 10#4 0 with melreq2 := true }.melreq2 = true ∧
    { atPhase 11#4 0 with melreq3 := true }.held = false ∧ (atPhase 9#4 0).melreq1 = false ∧ (atPhase 10#4 0).melreq2 = false ∧
    (atPhase 11#4 0).melreq3 = false := by decide

theorem witness_WaitsHoldBeforeTheDeadline :
    (playing 2#3 1#2 0#8 0 1).T < (playing 2#3 1#2 0#8 0 1).dl ∧ 2 ≤ (playing 2#3 1#2 0#8 0 1).ms.toNat ∧
    (playing 5#3 1#2 0#8 0 1).ms.toNat ≤ 5 ∧ (playing 2#3 1#2 0#8 0 1).held = false := by decide

theorem witness_CodeInMsSelectsTheNoteStep :
    (decode (.mstate (playing 1#3 1#2 0#8 0 0).ms) = .ok .mFetch ∧ decode (.mstate (playing 5#3 1#2 0#8 0 0).ms) = .ok .mGap) ∧
    ((playing 0#3 1#2 0#8 0 0).ms = 0#3 ∧ (playing 6#3 1#2 0#8 0 0).ms = 6#3 ∧ (playing 7#3 1#2 0#8 0 0).ms = 7#3) ∧
    base.ph ≠ 12#4 ∧ (playing 0#3 0#2 0#8 0 0).ph = 12#4 := by decide

/-- A playing state for every code of `ms`, its step enabled. -/
theorem witness_PlayCompletesUnderTheInvariant :
    BlockInv (playing 1#3 1#2 3#8 0 0) ∧ BlockInv { playing 2#3 1#2 0#8 9 9 with cyc := 44#32, half := 1136#19, buzz := true } ∧
    BlockInv { playing 3#3 1#2 0#8 9 9 with cyc := 1#32, half := 7#19 } ∧ BlockInv (playing 4#3 3#2 0#8 9 9) ∧
    BlockInv (playing 5#3 1#2 2#8 9 9) ∧ mainEnabled (playing 1#3 1#2 3#8 0 0) = true ∧
    mainEnabled (playing 5#3 1#2 2#8 9 9) = true :=
  ⟨blockInv_of_facts (by decide), blockInv_of_facts (by decide), blockInv_of_facts (by decide), blockInv_of_facts (by decide),
    blockInv_of_facts (by decide), by decide, by decide⟩

/-- A melody whose two entries lie on either side of one full cycle (R187): 100 Hz for 9 ms, 1000 Hz for 1 ms. -/
def edgeMelody : LegalMelody := ⟨[0x00640009#32, 0x03E80001#32], by decide⟩

theorem witness_FetchEntersTheNextEntryOrEndsTheMelody :
    (melodyOfCode (playing 1#3 3#2 0#8 0 0).mel = some .three ∧ noteRead tc .three 0 = some 0x0000001E#32 ∧
      (0x0000001E#32).toNat / 65536 = 0) ∧
    (noteRead { tc with legalMel1 := edgeMelody } .one 0 = some 0x00640009#32 ∧ 100 * 9 < 1000 ∧
      noteRead { tc with legalMel1 := edgeMelody } .one 1 = some 0x03E80001#32 ∧ 1000 ≤ 1000 * 1) ∧
    ((playing 1#3 1#2 3#8 0 0).ni.toNat = tc.mel1.length ∧ (playing 1#3 2#2 1#8 0 0).ni.toNat = tc.mel2.length ∧
      (playing 1#3 3#2 2#8 0 0).ni.toNat = tc.mel3.length) := by decide

theorem witness_WaitingStepsFireAtTheDeadline :
    (playing 3#3 1#2 0#8 9 9).held = false ∧ (playing 3#3 1#2 0#8 9 9).dl ≤ (playing 3#3 1#2 0#8 9 9).T ∧
    { playing 3#3 1#2 0#8 9 9 with cyc := 1#32 }.cyc.toNat = 1 ∧ 2 ≤ { playing 3#3 1#2 0#8 9 9 with cyc := 2#32 }.cyc.toNat ∧
    (playing 5#3 1#2 254#8 9 9).ni.toNat < 255 := by decide

/-- PERIOD itself on one axis and the last reading below it on the other; both axes out of range; the last cycle's count; the last entry. -/
theorem witness_ValuesOutsideTheRulesRunOrStop :
    (base.cfg.period ≤ (4096#14).toNat ∧ (4095#14).toNat < base.cfg.period ∧ base.cfg.period ≤ (16383#14).toNat ∧
      base.cfg.rowVariant = .double ∧ { tc with rowVariant := .single }.rowVariant = .single) ∧
    ((atPhase 3#4 0).held = false ∧ (atPhase 3#4 0).cfg.period ≤ { atPhase 3#4 0 with rdX := 4096#14 }.rdX.toNat ∧
      { atPhase 3#4 0 with rdX := 4096#14 }.rdY.toNat < (atPhase 3#4 0).cfg.period) ∧
    ((playing 3#3 1#2 0#8 9 9).held = false ∧ (playing 3#3 1#2 0#8 9 9).dl ≤ (playing 3#3 1#2 0#8 9 9).T ∧
      (playing 3#3 1#2 0#8 9 9).cyc = 0#32) ∧
    ((playing 5#3 1#2 255#8 9 9).ni = 255#8 ∧ (playing 5#3 1#2 255#8 9 9).dl ≤ (playing 5#3 1#2 255#8 9 9).T) ∧
    (playing 1#3 0#2 0#8 0 0).mel = 0#2 ∧
    (melodyOfCode (playing 1#3 1#2 4#8 0 0).mel = some .one ∧ melodyLen tc .one < (playing 1#3 1#2 4#8 0 0).ni.toNat ∧
      refusedWith (exec .mFetch (playing 1#3 1#2 4#8 0 0)) .noteEntryMissing = true) := by decide

theorem witness_MappingFunctionsReturnTheirValues : (4095#14).toNat < base.cfg.period ∧ base.cfg.rowVariant = .double := by decide

theorem witness_MatrixFunctionsReturnTheirValues :
    ((4#4).toNat ≤ 4 ∧ 4 < (5#4).toNat) ∧ (0 ≤ (4#4).toInt ∧ (4#4).toInt < 5 ∧ (4#4).toNat < 5) := by decide

theorem witness_PlayFunctionStartsTheMelody : base.held = false ∧ (MelodyNo.three = .three ∧ 3#2 = 3#2) := by decide

theorem witness_OnlyAdvAndRstChangeTime :
    holds (exec .phSleep { atPhase 13#4 50000 with dl := 50000 }) (fun _ => true) = true ∧ Instr.phSleep ≠ .rst ∧
    (∀ n, Instr.phSleep ≠ .adv n) := ⟨by decide, by decide, fun n => by simp⟩

/-- An operation outside every list of writers of a control register, and one outside those of the data registers and the request flags. -/
theorem witness_EachRegisterHasItsOwnWriters :
    (holds (exec .mIdle base) (fun _ => true) = true ∧ (∀ x y, Instr.mIdle ≠ .joy x y) ∧ (∀ k, Instr.mIdle ≠ .play k) ∧
      Instr.mIdle ∉ [.rst, .phInit, .phRgb, .phSample, .phMapd, .phMapm, .phDz, .phMbuf, .phMsend, .phDraw, .phSvc1, .phSvc2,
        .phSvc3, .phPlay, .phSleep, .mFetch, .mHigh, .mLow, .mRest, .mGap, .btnA, .btnB]) ∧
    (holds (exec .phSvc1 { atPhase 9#4 0 with melreq1 := true, melreq2 := true }) (fun t => t.melreq2) = true ∧
      Instr.phSvc1 ∉ [.rst, .btnB, .phSvc2, .phPlay, .mFetch] ∧ Instr.phSvc1 ≠ .btnB) :=
  ⟨⟨by decide, fun x y => by simp, fun k => by simp, by decide⟩, by decide, by decide, by decide⟩

theorem witness_EdgeStepsLeaveMainAlone :
    holds (exec .btnA (playing 5#3 1#2 0#8 200000 200001)) (fun _ => true) = true ∧
    holds (exec .btnB (playing 5#3 1#2 0#8 199999 200001)) (fun _ => true) = true := by decide

theorem witness_DisabledCycleNeverAdvances :
    holds (exec .phRgb { atPhase 1#4 900000 with rgbEn := false }) (fun _ => true) = true ∧ Instr.phRgb ≠ .rst := by decide

theorem witness_HistoryOnlyGrows : holds (exec .phDraw (atPhase 8#4 0)) (fun _ => true) = true ∧ Instr.phDraw ≠ .rst := by decide

theorem witness_NothingReadsTheDeadzoneResult :
    withoutDeadzone { atPhase 5#4 0 with calX := 1#14, movY := true } = withoutDeadzone (atPhase 5#4 0) ∧
    { atPhase 5#4 0 with calX := 1#14, movY := true } ≠ atPhase 5#4 0 := by decide

theorem witness_InvariantHoldsAfterReset : (0#14).toNat < tc.period ∧ (4095#14).toNat < tc.period := by decide

theorem witness_EveryStepKeepsTheInvariant : BlockInv base ∧ holds (step base) (fun _ => true) = true :=
  ⟨blockInv_of_facts (by decide), by decide⟩

theorem witness_EveryInterleavingKeepsTheInvariant :
    BlockInv base ∧ HistoryInv base ∧ Rel base { base with inX := 5#14, inY := 6#14 } :=
  ⟨blockInv_of_facts (by decide), ⟨by decide, by decide, by decide, by decide, by decide⟩, Rel.joy 5#14 6#14 rfl⟩

theorem witness_ReachableStatesKeepTheRegisterInvariants :
    (2048#14).toNat < tc.period ∧ Reachable (State.afterRst tc 2048#14 2048#14 []) base ∧
    Rel base { base with calX := 2048#14, calY := 2048#14, ph := 1#4 } ∧
    { base with calX := 2048#14, calY := 2048#14, ph := 1#4 }.ph ≠ 0#4 :=
  ⟨by decide, Reachable.refl, Rel.main (i := .phInit) (by decide) (by decide) rfl, by decide⟩

theorem witness_StepRefinesTheStepRelation :
    (State.powerOn.held = true ∧ State.powerOn.adv = 0) ∧ base.held = false ∧ holds (step base) (fun _ => true) = true := by decide

theorem witness_MainNeverStops : BlockInv base ∧ mainEnabled base = true := ⟨blockInv_of_facts (by decide), by decide⟩

theorem witness_PhasesFollowOneAnotherInOrder :
    (BlockInv (atPhase 8#4 0) ∧ holds (mainStep (atPhase 8#4 0)) (fun _ => true) = true) ∧
    (BlockInv (atPhase 9#4 0) ∧ BlockInv (atPhase 10#4 0) ∧ BlockInv (atPhase 11#4 0) ∧ BlockInv (atPhase 13#4 0)) ∧
    BlockInv (playing 1#3 3#2 2#8 0 0) ∧ mainEnabled (atPhase 13#4 0) = true :=
  ⟨⟨blockInv_of_facts (by decide), by decide⟩, ⟨blockInv_of_facts (by decide), blockInv_of_facts (by decide),
    blockInv_of_facts (by decide), blockInv_of_facts (by decide)⟩, blockInv_of_facts (by decide), by decide⟩

theorem witness_QuiescenceWithinTwentySteps : BlockInv base ∧ base.held = false ∧ base.trace = [] :=
  ⟨blockInv_of_facts (by decide), by decide, by decide⟩

theorem witness_TickTakesFiftyMilliseconds :
    BlockInv { atPhase 1#4 0 with adv := 50000 } ∧ 50000 ≤ { atPhase 1#4 0 with adv := 50000 }.adv ∧
    (atPhase 1#4 0).melreq1 = false ∧ (atPhase 1#4 0).melreq2 = false ∧ (atPhase 1#4 0).melreq3 = false :=
  ⟨blockInv_of_facts (by decide), by decide, by decide, by decide, by decide⟩

/-- A tone of 1000 Hz for 10 ms takes 30 000, a rest of 30 ms 50 000; the advance is just long enough. -/
theorem witness_EntryTakesItsStatedTime :
    (BlockInv { playing 1#3 2#2 0#8 0 0 with adv := 30000 } ∧ noteRead tc .two 0 = some 0x03E8000A#32 ∧
      2 * (500000 / 1000) * (1000 * 10 / 1000) + 20000 = 30000) ∧
    (BlockInv { playing 1#3 3#2 0#8 0 0 with adv := 50000 } ∧ noteRead tc .three 0 = some 0x0000001E#32 ∧
      1000 * 30 + 20000 = 50000) :=
  ⟨⟨blockInv_of_facts (by decide), by decide, by decide⟩, blockInv_of_facts (by decide), by decide, by decide⟩

theorem witness_MelodyTakesTheSumOfItsEntries :
    BlockInv { playing 1#3 2#2 0#8 0 0 with adv := 30000 } ∧ melodyOfCode 2#2 = some .two ∧
    ((melodyWords tc .two).map (fun w =>
      if w.toNat / 65536 = 0 then 1000 * (w.toNat % 65536) + 20000
      else 2 * (500000 / (w.toNat / 65536)) * (w.toNat / 65536 * (w.toNat % 65536) / 1000) + 20000)).sum = 30000 :=
  ⟨blockInv_of_facts (by decide), by decide, by decide⟩

theorem witness_MelodyIsNotCutShort :
    BlockInv (playing 1#3 1#2 3#8 0 0) ∧ mainEnabled (playing 1#3 1#2 3#8 0 0) = true ∧
    holds (mainStep (playing 1#3 1#2 3#8 0 0)) (fun _ => true) = true :=
  ⟨blockInv_of_facts (by decide), by decide, by decide⟩

end Sys2Proof.Tests
end

section
/-! SUPPORT. The output history (00_scope.md R14; 10_state.md R27): what each shared operation appends to it, and from these that every
operation but RST appends events stamped with the `T` it runs at. -/

namespace Sys2Proof.Machine

/-- `t`'s history is `s`'s followed by events stamped with the `T` of `s`. -/
def AppendsNow (s t : State) : Prop := ∃ es : List Event, t.out = s.out ++ es ∧ ∀ e ∈ es, e.time = s.T

/-- A meaning run at `s` that answers appends events of `s.T`; a stop appends nothing. -/
def ResultAppendsNow (s : State) (o : Result) : Prop := ∀ t, o = .next t → AppendsNow s t

/-! ### Events of one write -/

theorem time_of_mem_ledEvents {s : State} {red green blue : Bool} {e : Event} (he : e ∈ ledEvents s red green blue) :
    e.time = s.T := by
  unfold ledEvents at he
  split at he
  · cases he
  · rw [List.mem_singleton.mp he]

theorem time_of_mem_buzzEvents {s : State} {level : Bool} {e : Event} (he : e ∈ buzzEvents s level) : e.time = s.T := by
  unfold buzzEvents at he
  split at he
  · cases he
  · rw [List.mem_singleton.mp he]

namespace AppendsNow

variable {s t u : State}

theorem of_out_eq (h : t.out = s.out) : AppendsNow s t := ⟨[], by rw [h, List.append_nil], fun _ he => nomatch he⟩

theorem of_event {k : EventKind} (h : t.out = s.out ++ [⟨s.T, k⟩]) : AppendsNow s t :=
  ⟨_, h, fun _ he => by rw [List.mem_singleton.mp he]⟩

theorem of_ledEvents {red green blue : Bool} (h : t.out = s.out ++ ledEvents s red green blue) : AppendsNow s t :=
  ⟨_, h, fun _ => time_of_mem_ledEvents⟩

theorem of_buzzEvents {level : Bool} (h : t.out = s.out ++ buzzEvents s level) : AppendsNow s t :=
  ⟨_, h, fun _ => time_of_mem_buzzEvents⟩

/-- Two parts of one operation: the first leaves `T`, so both stamp with the same time. -/
theorem trans (hsu : AppendsNow s u) (hT : u.T = s.T) (hut : AppendsNow u t) : AppendsNow s t := by
  obtain ⟨es, hes, hes_time⟩ := hsu
  obtain ⟨fs, hfs, hfs_time⟩ := hut
  refine ⟨es ++ fs, by rw [hfs, hes, List.append_assoc], fun e he => ?_⟩
  rcases List.mem_append.mp he with he | he
  · exact hes_time e he
  · exact (hfs_time e he).trans hT

end AppendsNow

/-! ### Results -/

namespace ResultAppendsNow

variable {s t : State} {o : Result}

theorem next (h : AppendsNow s t) : ResultAppendsNow s (.next t) := fun _ ht => by cases ht; exact h

theorem refused (r : Refusal) : ResultAppendsNow s (.refused r) := fun _ ht => nomatch ht

theorem whenLive (h : ResultAppendsNow s o) : ResultAppendsNow s (whenLive s o) := fun t ht => h t (whenLive_next ht).2

theorem whenDue (h : ResultAppendsNow s o) : ResultAppendsNow s (whenDue s o) := fun t ht => by
  rcases whenDue_next ht with ⟨_, rfl⟩ | ⟨_, ho⟩
  · exact .of_out_eq rfl
  · exact h t ho

/-- The phase is no part of the history. -/
theorem thenPhase {p : BitVec 4} (h : ResultAppendsNow s o) : ResultAppendsNow s (thenPhase p o) := fun t ht => by
  obtain ⟨u, ho, rfl⟩ := thenPhase_next ht
  exact h u ho

end ResultAppendsNow

/-! ### The shared operations -/

/-- Button A may darken the LEDs; button B's action is seen only in registers. -/
theorem buttonAction_appendsNow (s : State) (btn : Button) : ResultAppendsNow s (buttonAction s btn) := by
  cases btn with
  | a => exact .next (.of_ledEvents rfl)
  | b =>
    intro t ht
    obtain ⟨k, _, rfl⟩ := buttonAction_b_next ht
    exact .of_out_eq (setMelreq_out _ k true)

/-- One REJ, or one ACC and then what the button's action emits at the same `T`. -/
theorem edgeStep_appendsNow (s : State) (btn : Button) : ResultAppendsNow s (edgeStep s btn) := by
  intro t ht
  rcases edgeStep_next ht with ⟨_, rfl⟩ | ⟨_, hact⟩
  · exact .of_event (emit_out s _)
  · have haccept : AppendsNow s (acceptEdge s btn) := .of_event (acceptEdge_out s btn)
    exact haccept.trans (acceptEdge_T s btn) (buttonAction_appendsNow _ btn t hact)

theorem rgbStep_appendsNow (s : State) : ResultAppendsNow s (rgbStep s) := by
  intro t ht
  rcases rgbStep_next ht with ⟨_, rfl⟩ | ⟨_, _, rfl⟩ | ⟨_, _, hfire⟩
  · exact .of_ledEvents (setLeds_out s _ _ _)
  · exact .of_out_eq rfl
  · obtain ⟨red, green, blue, _, _, rfl⟩ := rgbFire_next hfire
    exact .of_ledEvents (setLeds_out s red green blue)

theorem startMelody_appendsNow (s : State) (k : MelodyNo) : AppendsNow s (startMelody s k) :=
  .of_event (startMelody_out s k)

theorem serviceSlot_appendsNow (s : State) (k : MelodyNo) : AppendsNow s (serviceSlot s k) := by
  rcases serviceSlot_cases s k with ⟨_, v, hstart⟩ | ⟨_, hpass⟩
  · rw [hstart]
    have hflag : AppendsNow s (setMelreq s k v) := .of_out_eq (setMelreq_out s k v)
    exact hflag.trans (setMelreq_T s k v) (startMelody_appendsNow _ k)
  · rw [hpass]
    exact .of_out_eq (afterSlot_out s k)

theorem endMelody_appendsNow (s : State) (k : MelodyNo) : AppendsNow s (endMelody s k) := by
  obtain ⟨v, hend⟩ := endMelody_eq s k
  rw [hend]
  exact .of_event (k := .melEnd k) (by simp)

/-- A rest lowers the buzzer, a tone raises it, a tone with no cycle leaves it. -/
theorem enterNote_appendsNow (s : State) (w : Word) : AppendsNow s (enterNote s w) := by
  unfold enterNote
  split
  · exact .of_buzzEvents (setBuzz_out s false)
  · split
    · exact .of_out_eq rfl
    · exact .of_buzzEvents (setBuzz_out s true)

theorem fetchNote_appendsNow (s : State) : ResultAppendsNow s (fetchNote s) := by
  intro t ht
  obtain ⟨k, _, ⟨_, rfl⟩ | ⟨_, w, _, rfl⟩⟩ := fetchNote_next ht
  · exact endMelody_appendsNow s k
  · exact enterNote_appendsNow s w

theorem highEnd_appendsNow (s : State) : AppendsNow s (highEnd s) := .of_buzzEvents (highEnd_out s)

theorem lowEnd_appendsNow (s : State) : AppendsNow s (lowEnd s) := by
  rcases lowEnd_cases s with ⟨_, hlast⟩ | ⟨_, _, hagain⟩ | ⟨_, hfree⟩
  · rw [hlast]; exact .of_out_eq rfl
  · rw [hagain]; exact .of_buzzEvents (setBuzz_out s true)
  · rw [hfree]; exact .of_buzzEvents (setBuzz_out s true)

theorem restEnd_appendsNow (s : State) : AppendsNow s (restEnd s) := .of_out_eq (restEnd_out s)

theorem gapEnd_appendsNow (s : State) : AppendsNow s (gapEnd s) := by
  rcases gapEnd_cases s with ⟨_, h⟩ | ⟨_, h⟩ <;> rw [h] <;> exact .of_out_eq rfl

theorem passTime_out (s : State) : (passTime s).out = s.out := by
  rcases passTime_cases s with ⟨_, h⟩ | ⟨_, h⟩ <;> rw [h]

/-! ### The operations -/

theorem execPhMbuf_appendsNow (s : State) : ResultAppendsNow s (execPhMbuf s) := by
  refine .whenLive ?_
  split
  · exact .next (.of_out_eq rfl)
  · exact .refused _

/-- PH_PLAY is the note sequencer's step that `ms` selects. -/
theorem execPhPlay_appendsNow (s : State) : ResultAppendsNow s (execPhPlay s) := by
  refine .whenLive ?_
  split
  · exact fetchNote_appendsNow s
  · exact .whenDue (.next (highEnd_appendsNow s))
  · exact .whenDue (.next (lowEnd_appendsNow s))
  · exact .whenDue (.next (restEnd_appendsNow s))
  · exact .whenDue (.next (gapEnd_appendsNow s))
  · exact .refused _

theorem execMIdle_appendsNow (s : State) : ResultAppendsNow s (execMIdle s) := by
  refine .whenLive ?_
  split
  · exact .refused _
  · exact .next (.of_out_eq rfl)

theorem execJoy_appendsNow (x y : Reading) (s : State) : ResultAppendsNow s (execJoy x y s) := by
  unfold execJoy
  split
  · exact .next (.of_out_eq rfl)
  · exact .refused _

/-- RST alone empties the history; every other operation appends at the `T` it runs at. -/
theorem exec_appendsNow {i : Instr} (s : State) (hi : i ≠ .rst) : ResultAppendsNow s (exec i s) := by
  cases i with
  | rst => exact absurd rfl hi
  | adv n => exact .whenLive (.next (.of_out_eq (passTime_out _)))
  | btnA => exact .whenLive (edgeStep_appendsNow s .a)
  | btnB => exact .whenLive (edgeStep_appendsNow s .b)
  | joy x y => exact execJoy_appendsNow x y s
  | phInit => exact .whenLive (.next (.of_out_eq rfl))
  | phRgb => exact .whenLive (.thenPhase (rgbStep_appendsNow s))
  | phSample => exact .whenLive (.next (.of_out_eq rfl))
  | phMapd => exact .whenLive (.next (.of_out_eq rfl))
  | phMapm => exact .whenLive (.next (.of_out_eq rfl))
  | phDz => exact .whenLive (.next (.of_out_eq rfl))
  | phMbuf => exact execPhMbuf_appendsNow s
  | phMsend => exact .whenLive (.next (.of_event (emit_out s _)))
  | phDraw => exact .whenLive (.next (.of_event (emit_out s _)))
  | phSvc1 => exact .whenLive (.next (serviceSlot_appendsNow s .one))
  | phSvc2 => exact .whenLive (.next (serviceSlot_appendsNow s .two))
  | phSvc3 => exact .whenLive (.next (serviceSlot_appendsNow s .three))
  | phPlay => exact execPhPlay_appendsNow s
  | phSleep => exact .whenLive (.whenDue (.next (.of_out_eq rfl)))
  | mIdle => exact execMIdle_appendsNow s
  | mFetch => exact .whenLive (fetchNote_appendsNow s)
  | mHigh => exact .whenLive (.whenDue (.next (highEnd_appendsNow s)))
  | mLow => exact .whenLive (.whenDue (.next (lowEnd_appendsNow s)))
  | mRest => exact .whenLive (.whenDue (.next (restEnd_appendsNow s)))
  | mGap => exact .whenLive (.whenDue (.next (gapEnd_appendsNow s)))
  | mapToDisplay x y => exact .next (.of_out_eq rfl)
  | mapToMatrix x y => exact .next (.of_out_eq rfl)
  | buildMatrixBuffer row col colour => exact .next (.of_out_eq rfl)
  | serp r c => exact .next (.of_out_eq rfl)
  | play k => exact .whenLive (.next (startMelody_appendsNow s k))

/-- Settles O47, from what each operation appends (`exec_appendsNow`). -/
theorem historyOnlyGrows : Obligations.HistoryOnlyGrows :=
  fun _ s t ht hi => exec_appendsNow s hi t ht

end Sys2Proof.Machine
end

section
/-! SUPPORT. Results: a property of every next state a meaning can answer. -/

namespace Sys2Proof.Machine

/-- Every next state that `o` answers has `p`; a stop has nothing to show. -/
def Answers (p : State → Prop) (o : Result) : Prop := ∀ t, o = .next t → p t

namespace Answers

variable {p : State → Prop} {s t : State} {o : Result}

theorem next (h : p t) : Answers p (.next t) := fun _ ht => by cases ht; exact h

theorem refused (r : Refusal) : Answers p (.refused r) := fun _ ht => nomatch ht

theorem whenLive (h : Answers p o) : Answers p (whenLive s o) := fun t ht => h t (whenLive_next ht).2

theorem whenDue (hs : p s) (h : Answers p o) : Answers p (whenDue s o) := fun t ht => by
  rcases whenDue_next ht with ⟨_, rfl⟩ | ⟨_, ho⟩
  · exact hs
  · exact h t ho

theorem thenPhase {q : BitVec 4} (h : Answers (fun u => p { u with ph := q }) o) : Answers p (thenPhase q o) := fun t ht => by
  obtain ⟨u, ho, rfl⟩ := thenPhase_next ht
  exact h u ho

end Answers

end Sys2Proof.Machine
end

section
/-! SUPPORT. The calibration centre and the movement flags are read by no step (41_coordinate_mapper.md R120): blanking them before
an operation and after it, or after it alone, gives the same outcome. -/

namespace Sys2Proof.Machine

/-! ### Registers that blanking leaves, and outcomes -/

section

variable (s : State)

@[simp] theorem withoutDeadzone_cfg : (withoutDeadzone s).cfg = s.cfg := rfl
@[simp] theorem withoutDeadzone_rgbState : (withoutDeadzone s).rgbState = s.rgbState := rfl
@[simp] theorem withoutDeadzone_mel : (withoutDeadzone s).mel = s.mel := rfl
@[simp] theorem withoutDeadzone_ni : (withoutDeadzone s).ni = s.ni := rfl
@[simp] theorem withoutDeadzone_cyc : (withoutDeadzone s).cyc = s.cyc := rfl
@[simp] theorem withoutDeadzone_ph : (withoutDeadzone s).ph = s.ph := rfl
@[simp] theorem withoutDeadzone_ms : (withoutDeadzone s).ms = s.ms := rfl
@[simp] theorem withoutDeadzone_sel : (withoutDeadzone s).sel = s.sel := rfl
@[simp] theorem withoutDeadzone_trace : (withoutDeadzone s).trace = s.trace := rfl
@[simp] theorem withoutDeadzone_colSel : (withoutDeadzone s).colSel = s.colSel := rfl
@[simp] theorem melreq_withoutDeadzone (k : MelodyNo) : melreq (withoutDeadzone s) k = melreq s k := by cases k <;> rfl
@[simp] theorem mainEnabled_withoutDeadzone : mainEnabled (withoutDeadzone s) = mainEnabled s := rfl
@[simp] theorem chooseStep_withoutDeadzone : chooseStep (withoutDeadzone s) = chooseStep s := rfl

end

/-- An outcome with the centre and the movement flags of its next state blanked. -/
def blankOutcome : Result → Result
  | .next s => .next (withoutDeadzone s)
  | .fault r => .fault r
  | .refused r => .refused r

theorem sameOutcome_of_blank {o p : Result} (h : blankOutcome o = blankOutcome p) :
    SameOutcome (fun a b => withoutDeadzone a = withoutDeadzone b) o p := by
  cases o <;> cases p <;> simp only [blankOutcome, Host.Outcome.next.injEq, Host.Outcome.fault.injEq, Host.Outcome.refused.injEq,
    reduceCtorEq] at h <;> exact h

theorem blankOutcome_thenPhase (p : BitVec 4) (o : Result) : blankOutcome (thenPhase p o) = thenPhase p (blankOutcome o) := by
  cases o <;> rfl

/-- The meaning `f` runs alike on a state and on the same state with the deadzone's registers blanked. -/
def IgnoresDeadzone (f : State → Result) : Prop := ∀ s, blankOutcome (f (withoutDeadzone s)) = blankOutcome (f s)

namespace IgnoresDeadzone

variable {f : State → Result}

theorem next {g : State → State} (h : ∀ s, withoutDeadzone (g (withoutDeadzone s)) = withoutDeadzone (g s)) :
    IgnoresDeadzone (fun s => .next (g s)) := fun s => congrArg Host.Outcome.next (h s)

/-- A branch on a condition that the deadzone's registers do not enter. -/
theorem ite {c : State → Bool} {g : State → Result} (hc : ∀ s, c (withoutDeadzone s) = c s) (hf : IgnoresDeadzone f)
    (hg : IgnoresDeadzone g) : IgnoresDeadzone (fun s => if c s then f s else g s) := fun s => by
  simp only [hc]
  split
  · exact hf s
  · exact hg s

theorem refused (r : Refusal) : IgnoresDeadzone (fun _ => .refused r) := fun _ => rfl

theorem whenLive (h : IgnoresDeadzone f) : IgnoresDeadzone (fun s => whenLive s (f s)) :=
  .ite (fun _ => rfl) (.refused _) h

theorem whenDue (h : IgnoresDeadzone f) : IgnoresDeadzone (fun s => whenDue s (f s)) :=
  .ite (fun _ => rfl) h (.next fun _ => rfl)

theorem thenPhase {p : BitVec 4} (h : IgnoresDeadzone f) : IgnoresDeadzone (fun s => thenPhase p (f s)) := fun s => by
  simp only [blankOutcome_thenPhase, h s]

end IgnoresDeadzone

/-! ### The shared operations -/

theorem buttonAction_ignoresDeadzone (btn : Button) : IgnoresDeadzone (fun s => buttonAction s btn) := by
  cases btn with
  | a => exact .next fun _ => rfl
  | b =>
    intro s
    simp only [buttonAction]
    rw [withoutDeadzone_sel]
    cases selectedMelody s.sel with
    | some k => cases k <;> rfl
    | none => rfl

theorem edgeStep_ignoresDeadzone (btn : Button) : IgnoresDeadzone (fun s => edgeStep s btn) :=
  .ite (fun _ => rfl) (fun s => buttonAction_ignoresDeadzone btn (acceptEdge s btn)) (.next fun _ => rfl)

theorem rgbFire_ignoresDeadzone : IgnoresDeadzone rgbFire := fun s => by
  unfold rgbFire
  rw [withoutDeadzone_rgbState]
  split <;> rfl

theorem rgbStep_ignoresDeadzone : IgnoresDeadzone rgbStep :=
  .ite (fun _ => rfl) (.ite (fun _ => rfl) rgbFire_ignoresDeadzone (.next fun _ => rfl)) (.next fun _ => rfl)

theorem serviceSlot_ignoresDeadzone (k : MelodyNo) : IgnoresDeadzone (fun s => .next (serviceSlot s k)) := by
  refine .next fun s => ?_
  unfold serviceSlot
  rw [melreq_withoutDeadzone, withoutDeadzone_cfg]
  cases melreq s k
  · cases k <;> rfl
  · cases s.cfg.melreqClear <;> cases k <;> rfl

theorem endMelody_withoutDeadzone (s : State) (k : MelodyNo) :
    withoutDeadzone (endMelody (withoutDeadzone s) k) = withoutDeadzone (endMelody s k) := by
  unfold endMelody
  rw [withoutDeadzone_cfg]
  cases s.cfg.melreqClear <;> cases k <;> rfl

theorem enterNote_withoutDeadzone (s : State) (w : Word) :
    withoutDeadzone (enterNote (withoutDeadzone s) w) = withoutDeadzone (enterNote s w) := by
  unfold enterNote
  rw [withoutDeadzone_cfg]
  split
  · rfl
  · split <;> rfl

theorem fetchNote_ignoresDeadzone : IgnoresDeadzone fetchNote := fun s => by
  unfold fetchNote
  rw [withoutDeadzone_mel, withoutDeadzone_ni, withoutDeadzone_cfg]
  split
  · rfl
  · split
    · exact congrArg Host.Outcome.next (endMelody_withoutDeadzone s _)
    · split
      · exact congrArg Host.Outcome.next (enterNote_withoutDeadzone s _)
      · rfl

theorem lowEnd_ignoresDeadzone : IgnoresDeadzone (fun s => .next (lowEnd s)) := .next fun s => by
  unfold lowEnd
  rw [withoutDeadzone_cyc]
  split
  · rfl
  · split <;> rfl

theorem gapEnd_ignoresDeadzone : IgnoresDeadzone (fun s => .next (gapEnd s)) := .next fun s => by
  unfold gapEnd
  rw [withoutDeadzone_ni]
  split <;> rfl

theorem passTime_ignoresDeadzone : IgnoresDeadzone (fun s => .next (passTime s)) := .next fun s => by
  unfold passTime
  rw [mainEnabled_withoutDeadzone]
  split <;> rfl

/-! ### The operations -/

theorem execPhMbuf_ignoresDeadzone : IgnoresDeadzone execPhMbuf := .whenLive fun s => by
  rw [withoutDeadzone_cfg, withoutDeadzone_colSel]
  cases selectedColour s.cfg s.colSel <;> rfl

/-- PH_PLAY is the note sequencer's step that `ms` selects. -/
theorem execPhPlay_ignoresDeadzone : IgnoresDeadzone execPhPlay := .whenLive fun s => by
  rw [withoutDeadzone_ms]
  split
  · exact fetchNote_ignoresDeadzone s
  · exact IgnoresDeadzone.whenDue (.next fun _ => rfl) s
  · exact IgnoresDeadzone.whenDue lowEnd_ignoresDeadzone s
  · exact IgnoresDeadzone.whenDue (.next fun _ => rfl) s
  · exact IgnoresDeadzone.whenDue gapEnd_ignoresDeadzone s
  · rfl

theorem execMIdle_ignoresDeadzone : IgnoresDeadzone execMIdle := .whenLive fun s => by
  rw [withoutDeadzone_ph]
  split <;> rfl

/-- No operation reads the deadzone's registers but PH_DZ, whose result is among them. -/
theorem exec_ignoresDeadzone (i : Instr) : IgnoresDeadzone (exec i) := by
  cases i with
  | rst => exact .next fun _ => rfl
  | adv n => exact .whenLive fun s => passTime_ignoresDeadzone { s with adv := s.adv + n.toNat }
  | btnA => exact .whenLive (edgeStep_ignoresDeadzone .a)
  | btnB => exact .whenLive (edgeStep_ignoresDeadzone .b)
  | joy x y =>
    exact .ite (c := fun s => readingOk s.cfg x && readingOk s.cfg y) (fun _ => rfl) (.next fun _ => rfl) (.refused _)
  | phInit => exact .whenLive (.next fun _ => rfl)
  | phRgb => exact .whenLive (.thenPhase rgbStep_ignoresDeadzone)
  | phSample => exact .whenLive (.next fun _ => rfl)
  | phMapd => exact .whenLive (.next fun _ => rfl)
  | phMapm => exact .whenLive (.next fun _ => rfl)
  | phDz => exact .whenLive (.next fun _ => rfl)
  | phMbuf => exact execPhMbuf_ignoresDeadzone
  | phMsend => exact .whenLive (.next fun _ => rfl)
  | phDraw => exact .whenLive (.next fun _ => rfl)
  | phSvc1 => exact .whenLive (serviceSlot_ignoresDeadzone .one)
  | phSvc2 => exact .whenLive (serviceSlot_ignoresDeadzone .two)
  | phSvc3 => exact .whenLive (serviceSlot_ignoresDeadzone .three)
  | phPlay => exact execPhPlay_ignoresDeadzone
  | phSleep => exact .whenLive (.whenDue (.next fun _ => rfl))
  | mIdle => exact execMIdle_ignoresDeadzone
  | mFetch => exact .whenLive fetchNote_ignoresDeadzone
  | mHigh => exact .whenLive (.whenDue (.next fun _ => rfl))
  | mLow => exact .whenLive (.whenDue lowEnd_ignoresDeadzone)
  | mRest => exact .whenLive (.whenDue (.next fun _ => rfl))
  | mGap => exact .whenLive (.whenDue gapEnd_ignoresDeadzone)
  | mapToDisplay x y => exact .next fun _ => rfl
  | mapToMatrix x y => exact .next fun _ => rfl
  | buildMatrixBuffer row col colour => exact .next fun _ => rfl
  | serp r c => exact .next fun _ => rfl
  | play k => exact .whenLive (.next fun _ => rfl)

/-! ### The step -/

theorem stimulusStep_ignoresDeadzone : IgnoresDeadzone stimulusStep := fun s => by
  unfold stimulusStep
  rw [withoutDeadzone_trace]
  split
  · rfl
  · split
    · exact exec_ignoresDeadzone _ (dropStimulus s)
    · rfl

theorem mainStep_ignoresDeadzone : IgnoresDeadzone mainStep := fun s => by
  unfold mainStep
  rw [withoutDeadzone_ph]
  split
  · exact exec_ignoresDeadzone _ (countLead s)
  · rfl

/-- What steps next is chosen without the deadzone's registers, and each choice runs without them. -/
theorem step_ignoresDeadzone : IgnoresDeadzone step := fun s => by
  unfold step
  rw [chooseStep_withoutDeadzone]
  cases chooseStep s with
  | stimulus => exact stimulusStep_ignoresDeadzone s
  | main => exact mainStep_ignoresDeadzone s
  | time => exact passTime_ignoresDeadzone s
  | idle => rfl

/-- Settles O48: both states step as their common blanked state does (`step_ignoresDeadzone`). -/
theorem nothingReadsTheDeadzoneResult : Obligations.NothingReadsTheDeadzoneResult := fun s u hsu =>
  sameOutcome_of_blank <| calc
    blankOutcome (step s) = blankOutcome (step (withoutDeadzone s)) := (step_ignoresDeadzone s).symm
    _ = blankOutcome (step (withoutDeadzone u)) := by rw [hsu]
    _ = blankOutcome (step u) := step_ignoresDeadzone u

end Sys2Proof.Machine
end

section
/-! SUPPORT. The frame of every operation: which fields it may write, once as a table by operation; that everything else is left
(10_state.md R28, R31, R32). -/

namespace Sys2Proof.Machine

/-- `s` with the fields that operation `i` may write taken from `u`: the table of footprints, one row per operation. -/
def footprint (i : Instr) (s u : State) : State :=
  match i with
  | .rst => { u with cfg := s.cfg, inX := s.inX, inY := s.inY, trace := s.trace, freeCount := s.freeCount }
  | .adv _ => { s with T := u.T, adv := u.adv }
  | .btnA => { s with debLast := u.debLast, rgbEn := u.rgbEn, ledR := u.ledR, ledG := u.ledG, ledB := u.ledB, out := u.out }
  | .btnB =>
    { s with debLast := u.debLast, sel := u.sel, colSel := u.colSel, melreq1 := u.melreq1, melreq2 := u.melreq2,
             melreq3 := u.melreq3, out := u.out }
  | .joy _ _ => { s with inX := u.inX, inY := u.inY }
  | .phInit => { s with calX := u.calX, calY := u.calY, ph := u.ph }
  | .phRgb =>
    { s with rgbState := u.rgbState, rgbLast := u.rgbLast, ledR := u.ledR, ledG := u.ledG, ledB := u.ledB, ph := u.ph, out := u.out }
  | .phSample => { s with rdX := u.rdX, rdY := u.rdY, ph := u.ph }
  | .phMapd => { s with curX := u.curX, curY := u.curY, ph := u.ph, freeCount := u.freeCount }
  | .phMapm => { s with cellRow := u.cellRow, cellCol := u.cellCol, ph := u.ph, freeCount := u.freeCount }
  | .phDz => { s with movX := u.movX, movY := u.movY, ph := u.ph }
  | .phMbuf => { s with mbuf := u.mbuf, ph := u.ph }
  | .phMsend => { s with ph := u.ph, out := u.out }
  | .phDraw => { s with ph := u.ph, out := u.out }
  | .phSvc1 => { s with melreq1 := u.melreq1, ph := u.ph, mel := u.mel, ni := u.ni, ms := u.ms, out := u.out }
  | .phSvc2 => { s with melreq2 := u.melreq2, ph := u.ph, mel := u.mel, ni := u.ni, ms := u.ms, out := u.out }
  | .phSvc3 => { s with melreq3 := u.melreq3, ph := u.ph, dl := u.dl, mel := u.mel, ni := u.ni, ms := u.ms, out := u.out }
  | .phPlay =>
    { s with melreq1 := u.melreq1, melreq2 := u.melreq2, melreq3 := u.melreq3, ph := u.ph, dl := u.dl, mel := u.mel, ni := u.ni,
             ms := u.ms, cyc := u.cyc, half := u.half, buzz := u.buzz, out := u.out, freeCount := u.freeCount }
  | .phSleep => { s with ph := u.ph }
  | .mIdle => s
  | .mFetch =>
    { s with melreq1 := u.melreq1, melreq2 := u.melreq2, melreq3 := u.melreq3, ph := u.ph, dl := u.dl, mel := u.mel, ni := u.ni,
             ms := u.ms, cyc := u.cyc, half := u.half, buzz := u.buzz, out := u.out }
  | .mHigh => { s with dl := u.dl, ms := u.ms, buzz := u.buzz, out := u.out }
  | .mLow => { s with dl := u.dl, ms := u.ms, cyc := u.cyc, buzz := u.buzz, out := u.out, freeCount := u.freeCount }
  | .mRest => { s with dl := u.dl, ms := u.ms }
  | .mGap => { s with ni := u.ni, ms := u.ms, freeCount := u.freeCount }
  | .mapToDisplay _ _ => { s with fnResult := u.fnResult, freeCount := u.freeCount }
  | .mapToMatrix _ _ => { s with fnResult := u.fnResult, freeCount := u.freeCount }
  | .buildMatrixBuffer _ _ _ => { s with fnResult := u.fnResult }
  | .serp _ _ => { s with fnResult := u.fnResult, freeCount := u.freeCount }
  | .play _ => { s with ph := u.ph, mel := u.mel, ni := u.ni, ms := u.ms, out := u.out }

/-- `t` differs from `s` inside the footprint of `i` alone. -/
def Framed (i : Instr) (s t : State) : Prop := t = footprint i s t

/-! ### The shared operations -/

theorem edgeStep_a_framed (s : State) : Answers (Framed .btnA s) (edgeStep s .a) := fun t ht => by
  rcases edgeStep_next ht with ⟨_, rfl⟩ | ⟨_, hact⟩
  · rfl
  · rw [buttonAction_a] at hact
    cases hact
    rfl

theorem edgeStep_b_framed (s : State) : Answers (Framed .btnB s) (edgeStep s .b) := fun t ht => by
  rcases edgeStep_next ht with ⟨_, rfl⟩ | ⟨_, hact⟩
  · rfl
  · obtain ⟨k, _, rfl⟩ := buttonAction_b_next hact
    cases k <;> rfl

theorem rgbStep_framed (s : State) (p : BitVec 4) : Answers (fun t => Framed .phRgb s { t with ph := p }) (rgbStep s) :=
  fun t ht => by
  rcases rgbStep_next ht with ⟨_, rfl⟩ | ⟨_, _, rfl⟩ | ⟨_, _, hfire⟩
  · rfl
  · rfl
  · obtain ⟨red, green, blue, _, _, rfl⟩ := rgbFire_next hfire
    rfl

/-- The operation of a service slot. -/
def slotOp : MelodyNo → Instr
  | .one => .phSvc1
  | .two => .phSvc2
  | .three => .phSvc3

theorem serviceSlot_framed (s : State) (k : MelodyNo) : Framed (slotOp k) s (serviceSlot s k) := by
  rcases serviceSlot_cases s k with ⟨_, v, h⟩ | ⟨_, h⟩ <;> rw [h] <;> cases k <;> rfl

theorem fetchNote_framed (s : State) : Answers (Framed .mFetch s) (fetchNote s) := fun t ht => by
  obtain ⟨k, _, ⟨_, rfl⟩ | ⟨_, w, _, rfl⟩⟩ := fetchNote_next ht
  · obtain ⟨v, hend⟩ := endMelody_eq s k
    rw [hend]
    cases k <;> rfl
  · unfold enterNote
    split
    · rfl
    · split <;> rfl

theorem lowEnd_framed (s : State) : Framed .mLow s (lowEnd s) := by
  rcases lowEnd_cases s with ⟨_, h⟩ | ⟨_, _, h⟩ | ⟨_, h⟩ <;> rw [h] <;> rfl

theorem gapEnd_framed (s : State) : Framed .mGap s (gapEnd s) := by
  rcases gapEnd_cases s with ⟨_, h⟩ | ⟨_, h⟩ <;> rw [h] <;> rfl

theorem passTime_framed (s : State) (n : BitVec 28) : Framed (.adv n) s (passTime { s with adv := s.adv + n.toNat }) := by
  rcases passTime_cases { s with adv := s.adv + n.toNat } with ⟨_, h⟩ | ⟨_, h⟩ <;> rw [h] <;> rfl

/-! ### The operations -/

/-- The note sequencer's operations write inside PH_PLAY's footprint. -/
theorem Framed.phPlay {i : Instr} {s t : State} (hi : i ∈ [.mFetch, .mHigh, .mLow, .mRest, .mGap]) (h : Framed i s t) :
    Framed .phPlay s t := by
  simp only [List.mem_cons, List.not_mem_nil, or_false] at hi
  rcases hi with rfl | rfl | rfl | rfl | rfl <;> rw [h] <;> rfl

theorem execPhPlay_framed (s : State) : Answers (Framed .phPlay s) (execPhPlay s) := by
  refine .whenLive ?_
  split
  · exact fun t ht => (fetchNote_framed s t ht).phPlay (by simp)
  · exact .whenDue rfl (.next (Framed.phPlay (i := .mHigh) (by simp) rfl))
  · exact .whenDue rfl (.next ((lowEnd_framed s).phPlay (by simp)))
  · exact .whenDue rfl (.next (Framed.phPlay (i := .mRest) (by simp) rfl))
  · exact .whenDue rfl (.next ((gapEnd_framed s).phPlay (by simp)))
  · exact .refused _

/-- Every operation writes inside its footprint. -/
theorem exec_framed (i : Instr) (s : State) : Answers (Framed i s) (exec i s) := by
  cases i with
  | rst => exact .next rfl
  | adv n => exact .whenLive (.next (passTime_framed s n))
  | btnA => exact .whenLive (edgeStep_a_framed s)
  | btnB => exact .whenLive (edgeStep_b_framed s)
  | joy x y =>
    intro t ht
    simp only [exec, execJoy] at ht
    split at ht
    · cases ht; rfl
    · cases ht
  | phInit => exact .whenLive (.next rfl)
  | phRgb => exact .whenLive (.thenPhase (rgbStep_framed s _))
  | phSample => exact .whenLive (.next rfl)
  | phMapd => exact .whenLive (.next rfl)
  | phMapm => exact .whenLive (.next rfl)
  | phDz => exact .whenLive (.next rfl)
  | phMbuf =>
    refine .whenLive ?_
    split
    · exact .next rfl
    · exact .refused _
  | phMsend => exact .whenLive (.next rfl)
  | phDraw => exact .whenLive (.next rfl)
  | phSvc1 => exact .whenLive (.next (serviceSlot_framed s .one))
  | phSvc2 => exact .whenLive (.next (serviceSlot_framed s .two))
  | phSvc3 => exact .whenLive (.next (serviceSlot_framed s .three))
  | phPlay => exact execPhPlay_framed s
  | phSleep => exact .whenLive (.whenDue rfl (.next rfl))
  | mIdle =>
    refine .whenLive ?_
    split
    · exact .refused _
    · exact .next rfl
  | mFetch => exact .whenLive (fetchNote_framed s)
  | mHigh => exact .whenLive (.whenDue rfl (.next rfl))
  | mLow => exact .whenLive (.whenDue rfl (.next (lowEnd_framed s)))
  | mRest => exact .whenLive (.whenDue rfl (.next rfl))
  | mGap => exact .whenLive (.whenDue rfl (.next (gapEnd_framed s)))
  | mapToDisplay x y => exact .next rfl
  | mapToMatrix x y => exact .next rfl
  | buildMatrixBuffer row col colour => exact .next rfl
  | serp r c => exact .next rfl
  | play k => exact .whenLive (.next rfl)

/-! ### Request flags -/

/-- No request flag is set in `t` that was clear in `s`. -/
def SetsNoRequest (s t : State) : Prop := ∀ k, melreq t k = true → melreq s k = true

theorem melreq_afterSlot (s : State) (k j : MelodyNo) : melreq (afterSlot s k) j = melreq s j := by
  cases k <;> cases j <;> rfl

theorem melreq_startMelody (s : State) (k j : MelodyNo) : melreq (startMelody s k) j = melreq s j := by
  cases j <;> rfl

theorem serviceSlot_setsNoRequest (s : State) (k : MelodyNo) : SetsNoRequest s (serviceSlot s k) := fun j hj => by
  rcases serviceSlot_cases s k with ⟨hk, v, h⟩ | ⟨_, h⟩
  · rw [h, melreq_startMelody, melreq_setMelreq] at hj
    split at hj
    · rename_i hjk; rw [hjk]; exact hk
    · exact hj
  · rwa [h, melreq_afterSlot] at hj

theorem endMelody_setsNoRequest (s : State) (k : MelodyNo) : SetsNoRequest s (endMelody s k) := fun j hj => by
  have hother : ∀ (u : State) (m n c), melreq { u with mel := m, ni := n, ms := c } j = melreq u j := by
    intro u m n c; cases j <;> rfl
  have hemit : melreq (emit s (.melEnd k)) j = melreq s j := by cases j <;> rfl
  unfold endMelody at hj
  split at hj
  · rwa [melreq_afterSlot, hother, hemit] at hj
  · rw [melreq_afterSlot, hother, melreq_setMelreq, hemit] at hj
    split at hj
    · cases hj
    · exact hj

/-- The operations whose footprint holds a request flag. -/
def requestOps : List Instr := [.rst, .btnB, .phSvc1, .phSvc2, .phSvc3, .phPlay, .mFetch]

theorem SetsNoRequest.of_framed {i : Instr} {s t : State} (hi : i ∉ requestOps) (h : Framed i s t) : SetsNoRequest s t := by
  have hkept : t.melreq1 = s.melreq1 ∧ t.melreq2 = s.melreq2 ∧ t.melreq3 = s.melreq3 := by
    rw [h]
    cases i <;> simp [requestOps] at hi <;> exact ⟨rfl, rfl, rfl⟩
  obtain ⟨h1, h2, h3⟩ := hkept
  intro k hk
  cases k
  · exact h1.symm.trans hk
  · exact h2.symm.trans hk
  · exact h3.symm.trans hk

theorem enterNote_setsNoRequest (s : State) (w : Word) : SetsNoRequest s (enterNote s w) := fun k hk => by
  unfold enterNote at hk
  split at hk
  · cases k <;> exact hk
  · split at hk <;> cases k <;> exact hk

theorem fetchNote_setsNoRequest (s : State) : Answers (SetsNoRequest s) (fetchNote s) := fun t ht => by
  obtain ⟨k, _, ⟨_, rfl⟩ | ⟨_, w, _, rfl⟩⟩ := fetchNote_next ht
  · exact endMelody_setsNoRequest s k
  · exact enterNote_setsNoRequest s w

theorem execPhPlay_setsNoRequest (s : State) : Answers (SetsNoRequest s) (execPhPlay s) := by
  have hself : SetsNoRequest s s := fun _ h => h
  refine .whenLive ?_
  split
  · exact fetchNote_setsNoRequest s
  · exact .whenDue hself (.next (.of_framed (i := .mHigh) (by decide) rfl))
  · exact .whenDue hself (.next (.of_framed (i := .mLow) (by decide) (lowEnd_framed s)))
  · exact .whenDue hself (.next (.of_framed (i := .mRest) (by decide) rfl))
  · exact .whenDue hself (.next (.of_framed (i := .mGap) (by decide) (gapEnd_framed s)))
  · exact .refused _

/-- Button B alone sets a request flag (20_memory.md R72). -/
theorem exec_setsNoRequest {i : Instr} (s : State) (hi : i ≠ .btnB) : Answers (SetsNoRequest s) (exec i s) := by
  by_cases hop : i ∈ requestOps
  · simp only [requestOps, List.mem_cons, List.not_mem_nil, or_false] at hop
    rcases hop with rfl | rfl | rfl | rfl | rfl | rfl | rfl
    · exact .next fun k hk => by cases k <;> cases hk
    · exact absurd rfl hi
    · exact .whenLive (.next (serviceSlot_setsNoRequest s .one))
    · exact .whenLive (.next (serviceSlot_setsNoRequest s .two))
    · exact .whenLive (.next (serviceSlot_setsNoRequest s .three))
    · exact execPhPlay_setsNoRequest s
    · exact .whenLive (fetchNote_setsNoRequest s)
  · exact fun t ht => .of_framed hop (exec_framed i s t ht)

/-! ### The statements about writers -/

/-- Settles O43: `T` is in the footprint of RST and ADV alone. -/
theorem onlyAdvAndRstChangeTime : Obligations.OnlyAdvAndRstChangeTime := fun i s t ht hrst hadv => by
  rw [exec_framed i s t ht]
  cases i with
  | rst => exact absurd rfl hrst
  | adv n => exact absurd rfl (hadv n)
  | _ => rfl

/-- Settles O44: the table of footprints by operation, read by register; that the flags are set by button B alone is
`exec_setsNoRequest`. -/
theorem eachRegisterHasItsOwnWriters : Obligations.EachRegisterHasItsOwnWriters := fun i s t ht => by
  have hsets : i ≠ .btnB → (t.melreq1 = true → s.melreq1 = true) ∧ (t.melreq2 = true → s.melreq2 = true) ∧
      (t.melreq3 = true → s.melreq3 = true) := fun hi =>
    have hset := exec_setsNoRequest s hi t ht
    ⟨hset .one, hset .two, hset .three⟩
  obtain ⟨u, rfl⟩ : ∃ u, t = footprint i s u := ⟨t, exec_framed i s t ht⟩
  clear ht
  cases i <;> simp_all [footprint]

end Sys2Proof.Machine
end

section
/-! SUPPORT. The registers' and the data's invariants (10_state.md R28, R39): they hold right after reset, and
every operation keeps them, at whatever phase. -/

namespace Sys2Proof.Machine

/-! ### The registers (R39) -/

theorem nextOfThree_ne_three (v : BitVec 2) : nextOfThree v ≠ 3#2 := by
  revert v; decide

theorem afterRst_regInv (c : Config) (x y : Reading) (tr : List Stimulus) : RegInv (State.afterRst c x y tr) where
  selLegal := (by decide : 0#2 ≠ 3#2)
  rgbStateLegal := (by decide : 0#2 ≠ 3#2)
  colSelLegal := (by decide : 0#2 ≠ 3#2)
  mbufOne := ⟨rfl, Nat.zero_le 1⟩
  ledsOne := rfl
  phLegal := Nat.zero_le 13
  msLegal := Nat.zero_le 5
  debPast := Nat.le_refl 0
  rgbPast := Nat.le_refl 0

section

variable {s : State}

/-- The clock may only rise. -/
theorem RegInv.later (h : RegInv s) (n : Nat) : RegInv { s with T := s.T + n } :=
  { h with debPast := Nat.le_add_right_of_le h.debPast, rgbPast := Nat.le_add_right_of_le h.rgbPast }

theorem RegInv.phase (h : RegInv s) {p : BitVec 4} (hp : p.toNat ≤ 13) : RegInv { s with ph := p } := { h with phLegal := hp }

theorem RegInv.noteState (h : RegInv s) {c : BitVec 3} (hc : c.toNat ≤ 5) : RegInv { s with ms := c } := { h with msLegal := hc }

theorem passTime_regInv (h : RegInv s) : RegInv (passTime s) := by
  rcases passTime_cases s with ⟨_, ht⟩ | ⟨_, ht⟩ <;> rw [ht]
  · exact h
  · exact { h.later (freeRun s) with }

theorem setMelreq_regInv (h : RegInv s) (k : MelodyNo) (v : Bool) : RegInv (setMelreq s k v) := by
  cases k <;> exact { h with }

theorem edgeStep_regInv (h : RegInv s) (btn : Button) : Answers RegInv (edgeStep s btn) := fun t ht => by
  rcases edgeStep_next ht with ⟨_, rfl⟩ | ⟨_, hact⟩
  · exact { h with }
  · have haccept : RegInv (acceptEdge s btn) := { h with debPast := Nat.le_refl _ }
    cases btn with
    | a => cases hact; exact { haccept with ledsOne := rfl }
    | b =>
      obtain ⟨k, _, rfl⟩ := buttonAction_b_next hact
      have hselect : RegInv { acceptEdge s .b with colSel := s.sel, sel := nextOfThree s.sel } :=
        { haccept with colSelLegal := h.selLegal, selLegal := nextOfThree_ne_three s.sel }
      exact setMelreq_regInv hselect k true

theorem rgbStep_regInv (h : RegInv s) : Answers RegInv (rgbStep s) := fun t ht => by
  rcases rgbStep_next ht with ⟨_, rfl⟩ | ⟨_, _, rfl⟩ | ⟨_, _, hfire⟩
  · exact { h with ledsOne := rfl }
  · exact h
  · obtain ⟨red, green, blue, hone, _, rfl⟩ := rgbFire_next hfire
    have hleds : ledsOneHot (setLeds s red green blue) = true := by
      rcases hone with h | h | h <;> cases h <;> rfl
    exact { h with ledsOne := hleds, rgbStateLegal := nextOfThree_ne_three s.rgbState, rgbPast := Nat.le_refl _ }

theorem startMelody_regInv (h : RegInv s) (k : MelodyNo) : RegInv (startMelody s k) :=
  { h with phLegal := (by decide : (12#4).toNat ≤ 13), msLegal := (by decide : (1#3).toNat ≤ 5) }

theorem afterSlot_regInv (h : RegInv s) (k : MelodyNo) : RegInv (afterSlot s k) := by
  cases k
  · exact h.phase (by decide)
  · exact h.phase (by decide)
  · exact { h.phase (p := 13#4) (by decide) with }

theorem serviceSlot_regInv (h : RegInv s) (k : MelodyNo) : RegInv (serviceSlot s k) := by
  rcases serviceSlot_cases s k with ⟨_, v, hstart⟩ | ⟨_, hpass⟩
  · rw [hstart]; exact startMelody_regInv (setMelreq_regInv h k v) k
  · rw [hpass]; exact afterSlot_regInv h k

theorem endMelody_regInv (h : RegInv s) (k : MelodyNo) : RegInv (endMelody s k) := by
  obtain ⟨v, hend⟩ := endMelody_eq s k
  have hemit : RegInv (emit s (.melEnd k)) := { h with }
  have hidle : RegInv { setMelreq (emit s (.melEnd k)) k v with mel := 0#2, ni := 0#8, ms := 0#3 } :=
    { (setMelreq_regInv hemit k v).noteState (c := 0#3) (by decide) with }
  rw [hend]
  exact afterSlot_regInv hidle k

theorem enterNote_regInv (h : RegInv s) (w : Word) : RegInv (enterNote s w) := by
  unfold enterNote
  split
  · exact { h.noteState (c := 4#3) (by decide) with }
  · split
    · exact { h.noteState (c := 5#3) (by decide) with }
    · exact { h.noteState (c := 2#3) (by decide) with }

theorem fetchNote_regInv (h : RegInv s) : Answers RegInv (fetchNote s) := fun t ht => by
  obtain ⟨k, _, ⟨_, rfl⟩ | ⟨_, w, _, rfl⟩⟩ := fetchNote_next ht
  · exact endMelody_regInv h k
  · exact enterNote_regInv h w

theorem highEnd_regInv (h : RegInv s) : RegInv (highEnd s) := { h.noteState (c := 3#3) (by decide) with }

theorem lowEnd_regInv (h : RegInv s) : RegInv (lowEnd s) := by
  rcases lowEnd_cases s with ⟨_, hl⟩ | ⟨_, _, hl⟩ | ⟨_, hl⟩ <;> rw [hl]
  · exact { h.noteState (c := 5#3) (by decide) with }
  · exact { h.noteState (c := 2#3) (by decide) with }
  · exact { h.noteState (c := 2#3) (by decide) with }

theorem restEnd_regInv (h : RegInv s) : RegInv (restEnd s) := { h.noteState (c := 5#3) (by decide) with }

theorem gapEnd_regInv (h : RegInv s) : RegInv (gapEnd s) := by
  rcases gapEnd_cases s with ⟨_, hg⟩ | ⟨_, hg⟩ <;> rw [hg] <;> exact { h.noteState (c := 1#3) (by decide) with }

theorem execPhPlay_regInv (h : RegInv s) : Answers RegInv (execPhPlay s) := by
  refine .whenLive ?_
  split
  · exact fetchNote_regInv h
  · exact .whenDue h (.next (highEnd_regInv h))
  · exact .whenDue h (.next (lowEnd_regInv h))
  · exact .whenDue h (.next (restEnd_regInv h))
  · exact .whenDue h (.next (gapEnd_regInv h))
  · exact .refused _

theorem execPhMbuf_regInv (h : RegInv s) : Answers RegInv (execPhMbuf s) := by
  refine .whenLive ?_
  split
  · rename_i colour _
    have hone := And.intro (buildMatrixBuffer_wf s.cfg s.cellRow s.cellCol colour)
      (buildMatrixBuffer_length s.cfg s.cellRow s.cellCol colour)
    exact .next { h.phase (p := 7#4) (by decide) with mbufOne := hone }
  · exact .refused _

end

theorem execMIdle_unchanged (s : State) : Answers (· = s) (execMIdle s) := by
  refine .whenLive ?_
  split
  · exact .refused _
  · exact .next rfl

theorem execJoy_next {x y : Reading} {s t : State} (h : execJoy x y s = .next t) :
    x.toNat < s.cfg.period ∧ y.toNat < s.cfg.period ∧ t = { s with inX := x, inY := y } := by
  unfold execJoy at h
  split at h
  · rename_i hok
    cases h
    obtain ⟨hx, hy⟩ := Bool.and_eq_true_iff.mp hok
    exact ⟨(readingOk_iff _ _).mp hx, (readingOk_iff _ _).mp hy, rfl⟩
  · cases h

/-- Every operation keeps the registers' invariant, at whatever phase. -/
theorem exec_regInv {s : State} (i : Instr) (h : RegInv s) : Answers RegInv (exec i s) := by
  cases i with
  | rst => exact .next { afterRst_regInv s.cfg s.inX s.inY s.trace with }
  | adv n => exact .whenLive (.next (passTime_regInv { h with }))
  | btnA => exact .whenLive (edgeStep_regInv h .a)
  | btnB => exact .whenLive (edgeStep_regInv h .b)
  | joy x y => exact fun t ht => by obtain ⟨_, _, rfl⟩ := execJoy_next ht; exact { h with }
  | phInit => exact .whenLive (.next { h.phase (p := 1#4) (by decide) with })
  | phRgb => exact .whenLive (.thenPhase fun u hu => (rgbStep_regInv h u hu).phase (by decide))
  | phSample => exact .whenLive (.next { h.phase (p := 3#4) (by decide) with })
  | phMapd => exact .whenLive (.next { h.phase (p := 4#4) (by decide) with })
  | phMapm => exact .whenLive (.next { h.phase (p := 5#4) (by decide) with })
  | phDz => exact .whenLive (.next { h.phase (p := 6#4) (by decide) with })
  | phMbuf => exact execPhMbuf_regInv h
  | phMsend => exact .whenLive (.next { h.phase (p := 8#4) (by decide) with })
  | phDraw => exact .whenLive (.next { h.phase (p := 9#4) (by decide) with })
  | phSvc1 => exact .whenLive (.next (serviceSlot_regInv h .one))
  | phSvc2 => exact .whenLive (.next (serviceSlot_regInv h .two))
  | phSvc3 => exact .whenLive (.next (serviceSlot_regInv h .three))
  | phPlay => exact execPhPlay_regInv h
  | phSleep => exact .whenLive (.whenDue h (.next (h.phase (by decide))))
  | mIdle => exact fun t ht => execMIdle_unchanged s t ht ▸ h
  | mFetch => exact .whenLive (fetchNote_regInv h)
  | mHigh => exact .whenLive (.whenDue h (.next (highEnd_regInv h)))
  | mLow => exact .whenLive (.whenDue h (.next (lowEnd_regInv h)))
  | mRest => exact .whenLive (.whenDue h (.next (restEnd_regInv h)))
  | mGap => exact .whenLive (.whenDue h (.next (gapEnd_regInv h)))
  | mapToDisplay x y => exact .next { h with }
  | mapToMatrix x y => exact .next { h with }
  | buildMatrixBuffer row col colour => exact .next { h with }
  | serp r c => exact .next { h with }
  | play k => exact .whenLive (.next (startMelody_regInv h k))

/-! ### The data (R22, R28; 41_coordinate_mapper.md R114, R118; 43_rgb_cycle.md R148) -/

theorem afterRst_dataInv {c : Config} {x y : Reading} (hx : x.toNat < c.period) (hy : y.toNat < c.period)
    (tr : List Stimulus) : DataInv (State.afterRst c x y tr) where
  inRange := ⟨hx, hy⟩
  calRange := ⟨Nat.zero_lt_of_lt hx, Nat.zero_lt_of_lt hx⟩
  rdRange := ⟨Nat.zero_lt_of_lt hx, Nat.zero_lt_of_lt hx⟩
  curRange := ⟨Nat.zero_le 116, Nat.zero_le 52⟩
  cellRange := (by decide : -1 ≤ (0#4).toInt ∧ (0#4).toInt ≤ 4 ∧ (0#4).toNat ≤ 4)
  darkDisabled := fun _ => ⟨rfl, rfl, rfl⟩

/-- A cursor coordinate keeps MARGIN from both edges of its extent, the glyph's side included. -/
theorem cursorCoord_bounds (c : Config) {ext : Nat} (hext : 16 ≤ ext) (v : Nat) :
    4 ≤ cursorCoord c ext v ∧ cursorCoord c ext v ≤ ext - 12 := by
  simp only [cursorCoord, clamp, fixed_val]
  split
  · omega
  · split <;> omega

theorem mapToDisplay_bounds (c : Config) (x y : Reading) :
    (mapToDisplay c x y).1.toNat ≤ 116 ∧ (mapToDisplay c x y).2.toNat ≤ 52 := by
  have hx := cursorCoord_bounds c (ext := 128) (by decide) x.toNat
  have hy := cursorCoord_bounds c (ext := 64) (by decide) y.toNat
  simp only [mapToDisplay, fixed_val, BitVec.toNat_ofInt]
  omega

theorem floorDiv_mul_lt {a p : Nat} (n : Nat) (ha : a < p) (hn : 0 < n) : floorDiv (a * n) p < n :=
  Nat.div_lt_of_lt_mul (by rw [Nat.mul_comm a n, Nat.mul_comm p n]; exact Nat.mul_lt_mul_of_pos_left ha hn)

theorem matrixRow_bounds (c : Config) {y : Nat} (hy : y < c.period) : -1 ≤ matrixRow c y ∧ matrixRow c y ≤ 4 := by
  have hdouble : floorDiv ((c.period - y) * 5) c.period ≤ 5 :=
    Nat.div_le_of_le_mul (Nat.mul_le_mul_right 5 (Nat.sub_le c.period y))
  have hsingle := floorDiv_mul_lt 5 hy (by decide)
  simp only [matrixRow, fixed_val]
  split <;> omega

theorem mapToMatrix_bounds (c : Config) {x y : Reading} (hx : x.toNat < c.period) (hy : y.toNat < c.period) :
    -1 ≤ (mapToMatrix c x y).1.toInt ∧ (mapToMatrix c x y).1.toInt ≤ 4 ∧ (mapToMatrix c x y).2.toNat ≤ 4 := by
  have hrow := matrixRow_bounds c hy
  have hcol := floorDiv_mul_lt 5 hx (by decide)
  simp only [mapToMatrix, matrixCol, fixed_val, BitVec.toInt_ofInt, BitVec.toNat_ofNat]
  rw [Int.bmod_eq_of_le (by omega) (by omega)]
  omega

/-- The operations whose footprint holds a data register, an input or an LED. -/
def dataOps : List Instr := [.rst, .btnA, .phInit, .phRgb, .phSample, .phMapd, .phMapm]

section

variable {s t : State}

theorem DataInv.of_framed {i : Instr} (hi : i ∉ dataOps) (hjoy : ∀ x y, i ≠ .joy x y) (h : DataInv s) (hfr : Framed i s t) :
    DataInv t := by
  rw [hfr]
  cases i with
  | joy x y => exact absurd rfl (hjoy x y)
  | rst | btnA | phInit | phRgb | phSample | phMapd | phMapm => simp [dataOps] at hi
  | _ => exact { h with }

theorem DataInv.dark (h : DataInv s) : DataInv (setLeds s false false false) :=
  { h with darkDisabled := fun _ => ⟨rfl, rfl, rfl⟩ }

theorem edgeStep_a_dataInv (h : DataInv s) : Answers DataInv (edgeStep s .a) := fun t ht => by
  rcases edgeStep_next ht with ⟨_, rfl⟩ | ⟨_, hact⟩
  · exact { h with }
  · cases hact
    exact { h with darkDisabled := fun _ => ⟨rfl, rfl, rfl⟩ }

/-- A firing is in an enabled cycle alone. -/
theorem rgbStep_dataInv (h : DataInv s) : Answers DataInv (rgbStep s) := fun t ht => by
  rcases rgbStep_next ht with ⟨_, rfl⟩ | ⟨_, _, rfl⟩ | ⟨hen, _, hfire⟩
  · exact h.dark
  · exact h
  · obtain ⟨red, green, blue, _, _, rfl⟩ := rgbFire_next hfire
    exact { h with darkDisabled := fun hoff => absurd (hen.symm.trans hoff) (by decide) }

theorem execPhMapd_dataInv (h : DataInv s) : Answers DataInv (execPhMapd s) := by
  have hstated := cursorOf_stated ((readingsOk_iff s s.rdX s.rdY).mpr h.rdRange)
  have hcur : (cursorOf s s.rdX s.rdY).1.toNat ≤ 116 ∧ (cursorOf s s.rdX s.rdY).2.toNat ≤ 52 := by
    rw [hstated.1]; exact mapToDisplay_bounds s.cfg s.rdX s.rdY
  exact .whenLive (.next { h with curRange := hcur })

theorem execPhMapm_dataInv (h : DataInv s) : Answers DataInv (execPhMapm s) := by
  have hstated := cellOf_stated ((readingsOk_iff s s.rdX s.rdY).mpr h.rdRange)
  have hcell : -1 ≤ (cellOf s s.rdX s.rdY).1.toInt ∧ (cellOf s s.rdX s.rdY).1.toInt ≤ 4 ∧ (cellOf s s.rdX s.rdY).2.toNat ≤ 4 := by
    rw [hstated.1]; exact mapToMatrix_bounds s.cfg h.rdRange.1 h.rdRange.2
  exact .whenLive (.next { h with cellRange := hcell })

/-- Every operation keeps the data's invariant: those that write none of it by their footprints. -/
theorem exec_dataInv (i : Instr) (h : DataInv s) : Answers DataInv (exec i s) := by
  cases i with
  | rst => exact .next { afterRst_dataInv h.inRange.1 h.inRange.2 s.trace with }
  | btnA => exact .whenLive (edgeStep_a_dataInv h)
  | joy x y => exact fun t ht => by obtain ⟨hx, hy, rfl⟩ := execJoy_next ht; exact { h with inRange := ⟨hx, hy⟩ }
  | phInit => exact .whenLive (.next { h with calRange := h.inRange })
  | phRgb => exact .whenLive (.thenPhase fun u hu => { rgbStep_dataInv h u hu with })
  | phSample => exact .whenLive (.next { h with rdRange := h.inRange })
  | phMapd => exact execPhMapd_dataInv h
  | phMapm => exact execPhMapm_dataInv h
  | _ => exact fun t ht => h.of_framed (by simp [dataOps]) (by simp) (exec_framed _ s t ht)

end

end Sys2Proof.Machine
end

section
/-! SUPPORT. The note sequencer's invariant (10_state.md R38; 45_melody_sequencer.md R181, R189, R192, R194):
MAIN's step at `ph` and every stimulus keep it. -/

namespace Sys2Proof.Machine

/-- The operations a step can run with MAIN at phase `p`: a stimulus at any phase, or the phase of code `p` (30_encoding.md R86). -/
def Fetched (p : BitVec 4) : Instr → Prop
  | .rst | .adv _ | .btnA | .btnB | .joy _ _ => True
  | .phInit => p = 0#4
  | .phRgb => p = 1#4
  | .phSample => p = 2#4
  | .phMapd => p = 3#4
  | .phMapm => p = 4#4
  | .phDz => p = 5#4
  | .phMbuf => p = 6#4
  | .phMsend => p = 7#4
  | .phDraw => p = 8#4
  | .phSvc1 => p = 9#4
  | .phSvc2 => p = 10#4
  | .phSvc3 => p = 11#4
  | .phPlay => p = 12#4
  | .phSleep => p = 13#4
  | _ => False

theorem fetched_of_phase {p : BitVec 4} {i : Instr} (h : decode (.phase p) = .ok i) : Fetched p i := by
  simp only [decode, decodePhase] at h
  split at h <;> cases h <;> exact BitVec.eq_of_toNat_eq ‹_›

theorem fetched_of_stimulus {w : Word} {i : Instr} (p : BitVec 4) (h : decode (.stim w) = .ok i) : Fetched p i := by
  rcases decodeStim_cases h with rfl | ⟨n, rfl⟩ | rfl | rfl | ⟨x, y, rfl⟩ <;> trivial

/-! ### The two ways of holding it: no melody, or one playing -/

theorem NoteInv.of_idle {t : State} (hmel : t.mel = 0#2) (hms : t.ms = 0#3) (hbuzz : t.buzz = false) (hph : t.ph ≠ 12#4)
    (hdl : t.dl ≤ t.T + 65535000) : NoteInv t where
  melIdle := iff_of_true hmel hms
  playIdle := iff_of_true hms hph
  buzzHigh := by simp [hbuzz, hms]
  niRange k hk := by rw [hmel] at hk; cases hk
  niInside k hk := by rw [hmel] at hk; cases hk
  cycLeft := by simp [hms]
  halfRange := by simp [hms]
  dlBound := hdl

/-- What a tone's two halves need of `cyc` and `half` (R189). -/
def ToneOk (s : State) : Prop := s.cyc ≠ 0#32 ∧ 7 ≤ s.half.toNat ∧ s.half.toNat ≤ 500000

theorem NoteInv.of_playing {t : State} {k : MelodyNo} (hmel : t.mel = melodyCode k) (hms : t.ms ≠ 0#3) (hph : t.ph = 12#4)
    (hbuzz : t.buzz = true ↔ t.ms = 2#3) (hni : t.ni.toNat ≤ melodyLen t.cfg k)
    (hin : 2 ≤ t.ms.toNat → t.ni.toNat < melodyLen t.cfg k) (htone : t.ms = 2#3 ∨ t.ms = 3#3 → ToneOk t)
    (hdl : t.dl ≤ t.T + 65535000) : NoteInv t where
  melIdle := iff_of_false (hmel ▸ melodyCode_ne_zero k) hms
  playIdle := iff_of_false hms (not_not_intro hph)
  buzzHigh := hbuzz
  niRange j hj := by
    rw [hmel, melodyOfCode_code] at hj
    cases hj; exact hni
  niInside j hj := by
    rw [hmel, melodyOfCode_code] at hj
    cases hj; exact hin
  cycLeft hc := (htone hc).1
  halfRange hc := (htone hc).2
  dlBound := hdl

section

variable {s : State}

theorem NoteInv.silent (h : NoteInv s) {c : BitVec 3} (hms : s.ms = c) (hc : c ≠ 2#3) : s.buzz = false :=
  Bool.eq_false_iff.mpr fun hb => hc (hms.symm.trans (h.buzzHigh.mp hb))

theorem NoteInv.idle (h : NoteInv s) (hph : s.ph ≠ 12#4) : s.mel = 0#2 ∧ s.ms = 0#3 ∧ s.buzz = false :=
  have hms := h.playIdle.mpr hph
  ⟨h.melIdle.mpr hms, hms, h.silent hms (by decide)⟩

theorem NoteInv.playing (h : NoteInv s) (hms : s.ms ≠ 0#3) : s.ph = 12#4 ∧ ∃ k, s.mel = melodyCode k := by
  refine ⟨Classical.not_not.mp (mt h.playIdle.mpr hms), ?_⟩
  cases hm : melodyOfCode s.mel with
  | none => exact absurd (h.melIdle.mp (melodyOfCode_eq_none.mp hm)) hms
  | some k => exact ⟨k, melodyOfCode_eq_some.mp hm⟩

/-- In a waiting state of the note sequencer an entry is under way. -/
theorem NoteInv.waiting (h : NoteInv s) (hms : 2 ≤ s.ms.toNat) :
    s.ph = 12#4 ∧ ∃ k, s.mel = melodyCode k ∧ s.ni.toNat < melodyLen s.cfg k := by
  have hne : s.ms ≠ 0#3 := fun h0 => by rw [h0] at hms; exact absurd hms (by decide)
  obtain ⟨hph, k, hk⟩ := h.playing hne
  exact ⟨hph, k, hk, h.niInside k (melodyOfCode_eq_some.mpr hk) hms⟩

theorem NoteInv.later (h : NoteInv s) (n : Nat) : NoteInv { s with T := s.T + n } :=
  { h with dlBound := Nat.le_trans h.dlBound (Nat.add_le_add_right (Nat.le_add_right s.T n) _) }

/-- From one phase other than PH_PLAY to another. -/
theorem NoteInv.phase (h : NoteInv s) (hph : s.ph ≠ 12#4) {p : BitVec 4} (hp : p ≠ 12#4) : NoteInv { s with ph := p } :=
  { h with playIdle := iff_of_true (h.playIdle.mpr hph) hp }

end

/-! ### After reset, and the start and the end of a melody -/

theorem afterRst_noteInv (c : Config) (x y : Reading) (tr : List Stimulus) : NoteInv (State.afterRst c x y tr) :=
  .of_idle rfl rfl rfl (by decide : 0#4 ≠ 12#4) (Nat.zero_le _)

theorem afterSlot_ph_ne_play (s : State) (k : MelodyNo) : (afterSlot s k).ph ≠ 12#4 := by
  cases k <;> simp [afterSlot]

theorem afterSlot_dl_le {s : State} (h : s.dl ≤ s.T + 65535000) (k : MelodyNo) :
    (afterSlot s k).dl ≤ (afterSlot s k).T + 65535000 := by
  cases k with
  | one => exact h
  | two => exact h
  | three => simp [afterSlot]

section

variable {s : State}

theorem startMelody_noteInv (h : NoteInv s) (hph : s.ph ≠ 12#4) (k : MelodyNo) : NoteInv (startMelody s k) :=
  .of_playing (k := k) rfl (by simp) rfl (by simp [h.idle hph]) (Nat.zero_le _) (by simp) (by simp) h.dlBound

theorem serviceSlot_noteInv (h : NoteInv s) (hph : s.ph ≠ 12#4) (k : MelodyNo) : NoteInv (serviceSlot s k) := by
  rcases serviceSlot_cases s k with ⟨_, v, hstart⟩ | ⟨_, hpass⟩
  · have hflag : NoteInv (setMelreq s k v) := by cases k <;> exact { h with }
    rw [hstart]
    exact startMelody_noteInv hflag (by rwa [setMelreq_ph]) k
  · obtain ⟨hmel, hms, hbuzz⟩ := h.idle hph
    rw [hpass]
    exact .of_idle (by rwa [afterSlot_mel]) (by rwa [afterSlot_ms]) (by rwa [afterSlot_buzz]) (afterSlot_ph_ne_play s k)
      (afterSlot_dl_le h.dlBound k)

theorem endMelody_noteInv (hbuzz : s.buzz = false) (hdl : s.dl ≤ s.T + 65535000) (k : MelodyNo) : NoteInv (endMelody s k) := by
  obtain ⟨v, hend⟩ := endMelody_eq s k
  rw [hend]
  exact .of_idle (by simp) (by simp) (by simpa using hbuzz) (afterSlot_ph_ne_play _ k) (afterSlot_dl_le (by simpa using hdl) k)

/-! ### The note sequencer's steps -/

theorem toneHalf_le (f : Nat) : toneHalf f ≤ 500000 := Nat.div_le_self _ _

/-- A note with a frequency and at least one cycle loads `cyc` and `half` with a tone: neither register cuts its value off. -/
theorem toneOk_of_note {w : Word} (hfreq : noteFreq w ≠ 0#16) (hcyc : toneCycles (noteFreq w).toNat (noteDur w).toNat ≠ 0)
    (hs : s.cyc = BitVec.ofNat 32 (toneCycles (noteFreq w).toNat (noteDur w).toNat))
    (hh : s.half = BitVec.ofNat 19 (toneHalf (noteFreq w).toNat)) : ToneOk s := by
  have hpos : 1 ≤ (noteFreq w).toNat := Nat.one_le_iff_ne_zero.mpr fun h => hfreq (BitVec.eq_of_toNat_eq h)
  have hcycles := toneCycles_lt (Nat.le_of_lt_succ (noteFreq w).isLt) (Nat.le_of_lt_succ (noteDur w).isLt)
  have hhalf := toneHalf_bounds hpos (Nat.le_of_lt_succ (noteFreq w).isLt)
  have hcycVal : s.cyc.toNat = toneCycles (noteFreq w).toNat (noteDur w).toNat := by
    rw [hs, BitVec.toNat_ofNat, Nat.mod_eq_of_lt hcycles]
  have hhalfVal : s.half.toNat = toneHalf (noteFreq w).toNat := by
    rw [hh, BitVec.toNat_ofNat, Nat.mod_eq_of_lt (by omega)]
  refine ⟨fun h0 => hcyc ?_, hhalfVal ▸ hhalf⟩
  rw [← hcycVal, h0]
  rfl

/-- An entry that exists is entered at M_FETCH: a rest, a tone with no cycle, or a tone (R183, R187). -/
theorem enterNote_noteInv {k : MelodyNo} (hmel : s.mel = melodyCode k) (hph : s.ph = 12#4) (hbuzz : s.buzz = false)
    (hni : s.ni.toNat < melodyLen s.cfg k) (w : Word) : NoteInv (enterNote s w) := by
  have hdur := (noteDur w).isLt
  have hhalf := toneHalf_le (noteFreq w).toNat
  unfold enterNote
  split
  · exact .of_playing hmel (by simp) hph (by simp) (Nat.le_of_lt hni) (fun _ => hni) (by simp)
      (Nat.add_le_add_left (by omega : 1000 * (noteDur w).toNat ≤ 65535000) s.T)
  · rename_i hfreq
    rw [fixed_val] at hfreq
    split
    · exact .of_playing hmel (by simp) hph (by simp [hbuzz]) (Nat.le_of_lt hni) (fun _ => hni) (by simp) (by simp)
    · rename_i hcyc
      exact .of_playing hmel (by simp) hph (by simp) (Nat.le_of_lt hni) (fun _ => hni)
        (fun _ => toneOk_of_note hfreq hcyc rfl rfl)
        (Nat.add_le_add_left (by omega : toneHalf (noteFreq w).toNat ≤ 65535000) s.T)

theorem fetchNote_noteInv (h : NoteInv s) (hms : s.ms = 1#3) : Answers NoteInv (fetchNote s) := fun t ht => by
  have hbuzz := h.silent hms (by decide)
  obtain ⟨k, hk, ⟨_, rfl⟩ | ⟨hni, w, _, rfl⟩⟩ := fetchNote_next ht
  · exact endMelody_noteInv hbuzz h.dlBound k
  · obtain ⟨hph, _⟩ := h.playing (by rw [hms]; decide)
    exact enterNote_noteInv (melodyOfCode_eq_some.mp hk) hph hbuzz hni w

/-- The end of a high half leaves the tone's count and half period (R188). -/
theorem highEnd_noteInv (h : NoteInv s) (hms : s.ms = 2#3) : NoteInv (highEnd s) := by
  obtain ⟨hph, k, hk, hni⟩ := h.waiting (by rw [hms]; decide)
  have hhalf := h.halfRange (.inl hms)
  exact .of_playing hk (by simp) hph (by simp) (Nat.le_of_lt hni) (fun _ => hni) (fun _ => ⟨h.cycLeft (.inl hms), hhalf⟩)
    (Nat.add_le_add_left (by omega : s.half.toNat ≤ 65535000) s.T)

/-- The end of a low half: the gap after the last cycle, or one cycle fewer and still one left (R189). -/
theorem lowEnd_noteInv (h : NoteInv s) (hms : s.ms = 3#3) : NoteInv (lowEnd s) := by
  obtain ⟨hph, k, hk, hni⟩ := h.waiting (by rw [hms]; decide)
  have hcyc := h.cycLeft (.inr hms)
  have hhalf := h.halfRange (.inr hms)
  have hbuzz := h.silent hms (by decide)
  rcases lowEnd_cases s with ⟨_, hl⟩ | ⟨_, hmore, hl⟩ | ⟨h0, _⟩
  · rw [hl]
    exact .of_playing hk (by simp) hph (by simp [hbuzz]) (Nat.le_of_lt hni) (fun _ => hni) (by simp) (by simp)
  · have hleft : s.cyc - 1#32 ≠ 0#32 := by bv_omega
    rw [hl]
    exact .of_playing hk (by simp) hph (by simp) (Nat.le_of_lt hni) (fun _ => hni) (fun _ => ⟨hleft, hhalf⟩)
      (Nat.add_le_add_left (by omega : s.half.toNat ≤ 65535000) s.T)
  · exact absurd h0 hcyc

theorem restEnd_noteInv (h : NoteInv s) (hms : s.ms = 4#3) : NoteInv (restEnd s) := by
  obtain ⟨hph, k, hk, hni⟩ := h.waiting (by rw [hms]; decide)
  have hbuzz := h.silent hms (by decide)
  exact .of_playing hk (by simp) hph (by simp [hbuzz]) (Nat.le_of_lt hni) (fun _ => hni) (by simp) (by simp)

/-- After the gap the next entry, at most LEN (R192); LEN is at most 255, so `ni` does not wrap. -/
theorem gapEnd_noteInv (h : NoteInv s) (hms : s.ms = 5#3) : NoteInv (gapEnd s) := by
  obtain ⟨hph, k, hk, hni⟩ := h.waiting (by rw [hms]; decide)
  have hbuzz := h.silent hms (by decide)
  have hlen := melodyLen_le s.cfg k
  rcases gapEnd_cases s with ⟨hlt, hg⟩ | ⟨hwrap, _⟩
  · have hnext : (s.ni + 1#8).toNat ≤ melodyLen s.cfg k := by
      rw [BitVec.toNat_add, BitVec.toNat_ofNat]; omega
    rw [hg]
    exact .of_playing hk (by simp) hph (by simp [hbuzz]) hnext (by simp) (by simp) h.dlBound
  · rw [hwrap] at hni
    exact absurd hni (Nat.not_lt.mpr hlen)

theorem execPhPlay_noteInv (h : NoteInv s) : Answers NoteInv (execPhPlay s) := by
  refine .whenLive ?_
  split <;> rename_i hms
  · exact fetchNote_noteInv h (BitVec.eq_of_toNat_eq hms)
  · exact .whenDue h (.next (highEnd_noteInv h (BitVec.eq_of_toNat_eq hms)))
  · exact .whenDue h (.next (lowEnd_noteInv h (BitVec.eq_of_toNat_eq hms)))
  · exact .whenDue h (.next (restEnd_noteInv h (BitVec.eq_of_toNat_eq hms)))
  · exact .whenDue h (.next (gapEnd_noteInv h (BitVec.eq_of_toNat_eq hms)))
  · exact .refused _

/-! ### The operations -/

theorem passTime_noteInv (h : NoteInv s) : NoteInv (passTime s) := by
  rcases passTime_cases s with ⟨_, ht⟩ | ⟨_, ht⟩ <;> rw [ht]
  · exact h
  · exact { h.later (freeRun s) with }

/-- A stimulus, and the phase in `ph`, keep the note sequencer's invariant. -/
theorem exec_noteInv {i : Instr} (hi : Fetched s.ph i) (h : NoteInv s) : Answers NoteInv (exec i s) := by
  cases i with
  | rst => exact .next { afterRst_noteInv s.cfg s.inX s.inY s.trace with }
  | adv n => exact .whenLive (.next (passTime_noteInv { h with }))
  | btnA | btnB | joy x y => exact fun t ht => by rw [exec_framed _ s t ht]; exact { h with }
  | phInit => exact .whenLive (.next { h.phase (ne_of_eq_of_ne hi (by decide)) (p := 1#4) (by decide) with })
  | phRgb =>
    have hnext := h.phase (ne_of_eq_of_ne hi (by decide)) (p := 2#4) (by decide)
    refine .whenLive (.thenPhase fun u hu => ?_)
    show NoteInv { u with ph := 2#4 }
    rw [rgbStep_framed s 2#4 u hu]
    exact { hnext with }
  | phSample => exact .whenLive (.next { h.phase (ne_of_eq_of_ne hi (by decide)) (p := 3#4) (by decide) with })
  | phMapd => exact .whenLive (.next { h.phase (ne_of_eq_of_ne hi (by decide)) (p := 4#4) (by decide) with })
  | phMapm => exact .whenLive (.next { h.phase (ne_of_eq_of_ne hi (by decide)) (p := 5#4) (by decide) with })
  | phDz => exact .whenLive (.next { h.phase (ne_of_eq_of_ne hi (by decide)) (p := 6#4) (by decide) with })
  | phMbuf =>
    refine .whenLive ?_
    split
    · exact .next { h.phase (ne_of_eq_of_ne hi (by decide)) (p := 7#4) (by decide) with }
    · exact .refused _
  | phMsend => exact .whenLive (.next { h.phase (ne_of_eq_of_ne hi (by decide)) (p := 8#4) (by decide) with })
  | phDraw => exact .whenLive (.next { h.phase (ne_of_eq_of_ne hi (by decide)) (p := 9#4) (by decide) with })
  | phSvc1 => exact .whenLive (.next (serviceSlot_noteInv h (ne_of_eq_of_ne hi (by decide)) .one))
  | phSvc2 => exact .whenLive (.next (serviceSlot_noteInv h (ne_of_eq_of_ne hi (by decide)) .two))
  | phSvc3 => exact .whenLive (.next (serviceSlot_noteInv h (ne_of_eq_of_ne hi (by decide)) .three))
  | phPlay => exact execPhPlay_noteInv h
  | phSleep => exact .whenLive (.whenDue h (.next (h.phase (ne_of_eq_of_ne hi (by decide)) (by decide))))
  | _ => exact hi.elim

end

end Sys2Proof.Machine
end

section
/-! SUPPORT. What the history tells of the registers (44_debounce_mode.md R163, R166; 45_melody_sequencer.md R182, R185, R194):
each kind of event moves its own count and register together, and every other step leaves both. -/

namespace Sys2Proof.Machine

/-! ### Counting -/

@[simp] theorem countKind_append (p : EventKind → Bool) (es fs : List Event) :
    countKind p (es ++ fs) = countKind p es + countKind p fs := by
  simp [countKind]

@[simp] theorem countKind_single (p : EventKind → Bool) (e : Event) : countKind p [e] = if p e.kind then 1 else 0 := by
  cases h : p e.kind <;> simp [countKind, h]

/-- The kinds of event that `HistoryInv` counts. -/
def countedKinds : List (EventKind → Bool) := [isAccA, isAccB, isBuzz, isMelStart, isMelEnd]

/-- An event of no counted kind. -/
def isQuiet (k : EventKind) : Bool := countedKinds.all (fun p => !p k)

theorem countKind_quiet {p : EventKind → Bool} {es : List Event} (hp : p ∈ countedKinds)
    (hes : ∀ e ∈ es, isQuiet e.kind = true) : countKind p es = 0 := by
  simp only [countKind, List.length_eq_zero_iff, List.filter_eq_nil_iff]
  intro e he
  simpa using List.all_eq_true.mp (hes e he) p hp

theorem quiet_ledEvents (s : State) (red green blue : Bool) : ∀ e ∈ ledEvents s red green blue, isQuiet e.kind = true := by
  intro e he
  unfold ledEvents at he
  split at he
  · cases he
  · rw [List.mem_singleton.mp he]; rfl

/-- Parity after one more. -/
theorem odd_succ (n : Nat) : decide ((n + 1) % 2 = 1) = !decide (n % 2 = 1) := by
  rcases Nat.mod_two_eq_zero_or_one n with h | h <;> simp [Nat.add_mod, h]

theorem nextOfThree_toNat (v : BitVec 2) : (nextOfThree v).toNat = (v.toNat + 1) % 3 := by
  revert v; decide

/-! ### The five events that are counted, and the rest -/

namespace HistoryInv

variable {s : State}

theorem quiet (h : HistoryInv s) {es : List Event} (hes : ∀ e ∈ es, isQuiet e.kind = true) :
    HistoryInv { s with out := s.out ++ es } := by
  have hsame : ∀ p ∈ countedKinds, countKind p (s.out ++ es) = countKind p s.out := fun p hp => by
    rw [countKind_append, countKind_quiet hp hes, Nat.add_zero]
  have hA := hsame isAccA (by simp [countedKinds])
  have hB := hsame isAccB (by simp [countedKinds])
  have hbuzz := hsame isBuzz (by simp [countedKinds])
  have hstart := hsame isMelStart (by simp [countedKinds])
  have hend := hsame isMelEnd (by simp [countedKinds])
  exact ⟨by rw [hB]; exact h.selCounts, by rw [hB]; exact h.colourLast, by rw [hA]; exact h.enCounts,
    by rw [hbuzz]; exact h.buzzCounts, by rw [hstart, hend]; exact h.melodyCounts⟩

theorem acceptA (h : HistoryInv s) : HistoryInv { s with rgbEn := !s.rgbEn, out := s.out ++ [⟨s.T, .acc .a⟩] } where
  selCounts := by simpa [isAccB] using h.selCounts
  colourLast := by simpa [isAccB] using h.colourLast
  enCounts := by simp [isAccA, odd_succ, h.enCounts]
  buzzCounts := by simpa [isBuzz] using h.buzzCounts
  melodyCounts := by simpa [isMelStart, isMelEnd] using h.melodyCounts

theorem acceptB (h : HistoryInv s) :
    HistoryInv { s with colSel := s.sel, sel := nextOfThree s.sel, out := s.out ++ [⟨s.T, .acc .b⟩] } where
  selCounts := by simp [isAccB, nextOfThree_toNat, h.selCounts]
  colourLast := by simp [isAccB, h.selCounts]
  enCounts := by simpa [isAccA] using h.enCounts
  buzzCounts := by simpa [isBuzz] using h.buzzCounts
  melodyCounts := by simpa [isMelStart, isMelEnd] using h.melodyCounts

theorem buzzChange (h : HistoryInv s) : HistoryInv { s with buzz := !s.buzz, out := s.out ++ [⟨s.T, .buzz (!s.buzz)⟩] } where
  selCounts := by simpa [isAccB] using h.selCounts
  colourLast := by simpa [isAccB] using h.colourLast
  enCounts := by simpa [isAccA] using h.enCounts
  buzzCounts := by simp [isBuzz, odd_succ, h.buzzCounts]
  melodyCounts := by simpa [isMelStart, isMelEnd] using h.melodyCounts

/-- A write of `buzz` is an event exactly where it is a change. -/
theorem buzzWrite (h : HistoryInv s) (level : Bool) : HistoryInv (setBuzz s level) := by
  rcases Bool.eq_or_eq_not level s.buzz with rfl | rfl
  · have hsame : setBuzz s s.buzz = s := by simp [setBuzz, buzzEvents]
    rwa [hsame]
  · have hchange : setBuzz s (!s.buzz) = { s with buzz := !s.buzz, out := s.out ++ [⟨s.T, .buzz (!s.buzz)⟩] } := by
      simp [setBuzz, buzzEvents]
    rw [hchange]
    exact h.buzzChange

theorem melodyStarts (h : HistoryInv s) (hmel : s.mel = 0#2) (k : MelodyNo) :
    HistoryInv { s with mel := melodyCode k, out := s.out ++ [⟨s.T, .melStart k⟩] } where
  selCounts := by simpa [isAccB] using h.selCounts
  colourLast := by simpa [isAccB] using h.colourLast
  enCounts := by simpa [isAccA] using h.enCounts
  buzzCounts := by simpa [isBuzz] using h.buzzCounts
  melodyCounts := by
    have hcount := h.melodyCounts
    simp only [hmel, if_true] at hcount
    simp [isMelStart, isMelEnd, melodyCode_ne_zero, hcount]

theorem melodyEnds (h : HistoryInv s) {k : MelodyNo} (hmel : s.mel = melodyCode k) :
    HistoryInv { s with mel := 0#2, out := s.out ++ [⟨s.T, .melEnd k⟩] } where
  selCounts := by simpa [isAccB] using h.selCounts
  colourLast := by simpa [isAccB] using h.colourLast
  enCounts := by simpa [isAccA] using h.enCounts
  buzzCounts := by simpa [isBuzz] using h.buzzCounts
  melodyCounts := by
    have hcount := h.melodyCounts
    simp only [hmel, melodyCode_ne_zero, if_false] at hcount
    simp [isMelStart, isMelEnd, hcount]

theorem quietEvent (h : HistoryInv s) {k : EventKind} (hk : isQuiet k = true) : HistoryInv (emit s k) :=
  h.quiet fun _ he => by rw [List.mem_singleton.mp he]; exact hk

end HistoryInv

theorem afterRst_historyInv (c : Config) (x y : Reading) (tr : List Stimulus) : HistoryInv (State.afterRst c x y tr) where
  selCounts := rfl
  colourLast := rfl
  enCounts := (Bool.xor_false _).symm
  buzzCounts := rfl
  melodyCounts := rfl

/-! ### The operations -/

section

variable {s : State}

theorem edgeStep_historyInv (h : HistoryInv s) (btn : Button) : Answers HistoryInv (edgeStep s btn) := fun t ht => by
  rcases edgeStep_next ht with ⟨_, rfl⟩ | ⟨_, hact⟩
  · exact h.quietEvent rfl
  · cases btn with
    | a =>
      cases hact
      exact { h.acceptA.quiet (quiet_ledEvents s false false false) with }
    | b =>
      obtain ⟨k, _, rfl⟩ := buttonAction_b_next hact
      cases k <;> exact { h.acceptB with }

theorem rgbStep_historyInv (h : HistoryInv s) : Answers HistoryInv (rgbStep s) := fun t ht => by
  rcases rgbStep_next ht with ⟨_, rfl⟩ | ⟨_, _, rfl⟩ | ⟨_, _, hfire⟩
  · exact { h.quiet (quiet_ledEvents s false false false) with }
  · exact h
  · obtain ⟨red, green, blue, _, _, rfl⟩ := rgbFire_next hfire
    exact { h.quiet (quiet_ledEvents s red green blue) with }

theorem serviceSlot_historyInv (h : HistoryInv s) (hmel : s.mel = 0#2) (k : MelodyNo) : HistoryInv (serviceSlot s k) := by
  rcases serviceSlot_cases s k with ⟨_, v, hstart⟩ | ⟨_, hpass⟩
  · rw [hstart]
    cases k <;> exact { h.melodyStarts hmel _ with }
  · rw [hpass]
    cases k <;> exact { h with }

theorem fetchNote_historyInv (h : HistoryInv s) : Answers HistoryInv (fetchNote s) := fun t ht => by
  obtain ⟨k, hk, ⟨_, rfl⟩ | ⟨_, w, _, rfl⟩⟩ := fetchNote_next ht
  · obtain ⟨v, hend⟩ := endMelody_eq s k
    have hmel := melodyOfCode_eq_some.mp hk
    rw [hend]
    cases k <;> exact { h.melodyEnds hmel with }
  · unfold enterNote
    split
    · exact { h.buzzWrite false with }
    · split
      · exact { h with }
      · exact { h.buzzWrite true with }

theorem lowEnd_historyInv (h : HistoryInv s) : HistoryInv (lowEnd s) := by
  rcases lowEnd_cases s with ⟨_, hl⟩ | ⟨_, _, hl⟩ | ⟨_, hl⟩ <;> rw [hl]
  · exact { h with }
  · exact { h.buzzWrite true with }
  · exact { h.buzzWrite true with }

theorem execPhPlay_historyInv (h : HistoryInv s) : Answers HistoryInv (execPhPlay s) := by
  refine .whenLive ?_
  split
  · exact fetchNote_historyInv h
  · exact .whenDue h (.next { h.buzzWrite false with })
  · exact .whenDue h (.next (lowEnd_historyInv h))
  · exact .whenDue h (.next { h with })
  · refine .whenDue h (.next ?_)
    rw [gapEnd_framed s]
    exact { h with }
  · exact .refused _

/-- A stimulus, and the phase in `ph`, keep what the history tells: those that write none of it by their footprints. A service slot
starts a melody only where none plays (`NoteInv`). -/
theorem exec_historyInv {i : Instr} (hi : Fetched s.ph i) (hnote : NoteInv s) (h : HistoryInv s) :
    Answers HistoryInv (exec i s) := by
  have noMelody : s.ph ≠ 12#4 → s.mel = 0#2 := fun hph => (hnote.idle hph).1
  cases i with
  | rst => exact .next { afterRst_historyInv s.cfg s.inX s.inY s.trace with }
  | btnA => exact .whenLive (edgeStep_historyInv h .a)
  | btnB => exact .whenLive (edgeStep_historyInv h .b)
  | phRgb => exact .whenLive (.thenPhase fun u hu => { rgbStep_historyInv h u hu with })
  | phMsend => exact .whenLive (.next { h.quietEvent (k := .mx (memWords s.cfg s.mbuf)) rfl with })
  | phDraw => exact .whenLive (.next { h.quietEvent (k := .draw s.curX s.curY) rfl with })
  | phSvc1 => exact .whenLive (.next (serviceSlot_historyInv h (noMelody (ne_of_eq_of_ne hi (by decide))) .one))
  | phSvc2 => exact .whenLive (.next (serviceSlot_historyInv h (noMelody (ne_of_eq_of_ne hi (by decide))) .two))
  | phSvc3 => exact .whenLive (.next (serviceSlot_historyInv h (noMelody (ne_of_eq_of_ne hi (by decide))) .three))
  | phPlay => exact execPhPlay_historyInv h
  | mFetch | mHigh | mLow | play k => exact hi.elim
  | _ => exact fun t ht => by rw [exec_framed _ s t ht]; exact { h with }

end

end Sys2Proof.Machine
end

section
/-! SUPPORT. The invariants of the block together: right after reset, under every step of the model and every step of
the relation, and so in every reachable state. -/

namespace Sys2Proof.Machine

/-! ### Right after reset -/

/-- Settles O10: each reset value is the one `State.afterRst` writes. -/
theorem rstGivesEveryResetValue : Obligations.RstGivesEveryResetValue := fun s => by
  refine ⟨{ State.afterRst s.cfg s.inX s.inY s.trace with freeCount := s.freeCount }, rfl, ?_⟩
  simp [State.afterRst]

theorem afterRst_blockInv {c : Config} {x y : Reading} (hx : x.toNat < c.period) (hy : y.toNat < c.period)
    (tr : List Stimulus) : BlockInv (State.afterRst c x y tr) where
  heldStill := fun _ => rfl
  regs := afterRst_regInv c x y tr
  note := afterRst_noteInv c x y tr
  data := afterRst_dataInv hx hy tr

/-- Settles O49, part by part (`afterRst_blockInv`, `afterRst_historyInv`); `State.reset` is the case of the default configuration. -/
theorem invariantHoldsAfterReset : Obligations.InvariantHoldsAfterReset := by
  have hperiod : (0#14).toNat < Config.default.period := Nat.lt_of_lt_of_le (by decide) (period_ge Config.default)
  exact ⟨afterRst_blockInv hperiod hperiod [], afterRst_historyInv _ _ _ _,
    fun c x y tr hx hy => ⟨afterRst_blockInv hx hy tr, afterRst_historyInv c x y tr⟩⟩

/-! ### Operations, time and the environment's bookkeeping -/

section

variable {s : State}

/-- While held in reset nothing starts an advance; RST, which ends it, leaves none (70_reset_and_hazards.md R271). -/
theorem exec_heldStill (i : Instr) (h : s.held = true → s.adv = 0) : Answers (fun t => t.held = true → t.adv = 0) (exec i s) := by
  cases i with
  | rst => exact .next fun _ => rfl
  | adv n =>
    intro t ht hheld
    have hlive : s.held = false := (whenLive_next ht).1
    rw [exec_framed _ s t ht] at hheld
    exact absurd (hlive.symm.trans hheld) (by decide)
  | _ => exact fun t ht => by rw [exec_framed _ s t ht]; exact h

/-- A stimulus, and the phase in `ph`, keep the block's invariant. -/
theorem exec_blockInv {i : Instr} (hi : Fetched s.ph i) (h : BlockInv s) : Answers BlockInv (exec i s) := fun t ht =>
  ⟨exec_heldStill i h.heldStill t ht, exec_regInv i h.regs t ht, exec_noteInv hi h.note t ht, exec_dataInv i h.data t ht⟩

theorem BlockInv.setTrace (h : BlockInv s) (tr : List Stimulus) : BlockInv { s with trace := tr } where
  heldStill := h.heldStill
  regs := { h.regs with }
  note := { h.note with }
  data := { h.data with }

theorem BlockInv.later (h : BlockInv s) (n : Nat) : BlockInv { s with T := s.T + n } where
  heldStill := h.heldStill
  regs := h.regs.later n
  note := h.note.later n
  data := { h.data with }

theorem passTime_blockInv (h : BlockInv s) : BlockInv (passTime s) := by
  rcases passTime_cases s with ⟨_, ht⟩ | ⟨_, ht⟩ <;> rw [ht]
  · exact h
  · have hlater := h.later (freeRun s)
    have hstill : s.held = true → s.adv - freeRun s = 0 := fun hheld => by rw [h.heldStill hheld, Nat.zero_sub]
    exact ⟨hstill, { hlater.regs with }, { hlater.note with }, { hlater.data with }⟩

end

/-! ### The steps -/

/-- Settles O50: a step is a stimulus, the phase in `ph`, time or nothing (`step_cases`), and each keeps the invariant. -/
theorem everyStepKeepsTheInvariant : Obligations.EveryStepKeepsTheInvariant := fun s t h ht => by
  rcases step_cases ht with ⟨_, rfl⟩ | ⟨_, rfl⟩ | ⟨_, hmain⟩ | ⟨_, hstim⟩
  · exact h
  · exact passTime_blockInv h
  · obtain ⟨i, hdec, hexec⟩ := mainStep_next hmain
    have hbook : BlockInv (countLead s) := h.setTrace (countLead s).trace
    have hi : Fetched (countLead s).ph i := fetched_of_phase hdec
    exact exec_blockInv hi hbook t hexec
  · rcases stimulusStep_next hstim with ⟨_, rfl⟩ | ⟨st, rest, i, _, hdec, hexec⟩
    · exact h
    · have hbook := h.setTrace rest
      exact exec_blockInv (fetched_of_stimulus _ hdec) hbook t hexec

/-- Every step of the relation but the passage of time runs an operation that the phase allows. -/
theorem Rel.exec_or_time {s t : State} (h : Rel s t) :
    (∃ i, Fetched s.ph i ∧ exec i s = .next t) ∨ ∃ n, t = { s with T := s.T + n } := by
  cases h with
  | main _ hdec hexec => exact .inl ⟨_, fetched_of_phase hdec, hexec⟩
  | edgeA hexec => exact .inl ⟨.btnA, trivial, hexec⟩
  | edgeB hexec => exact .inl ⟨.btnB, trivial, hexec⟩
  | joy x y hexec => exact .inl ⟨.joy x y, trivial, hexec⟩
  | reset hexec => exact .inl ⟨.rst, trivial, hexec⟩
  | time n _ _ _ => exact .inr ⟨n, rfl⟩

/-- Settles O51: an operation keeps both invariants, and time enters the history in no way. -/
theorem everyInterleavingKeepsTheInvariant : Obligations.EveryInterleavingKeepsTheInvariant := fun s t hblock hhist hrel => by
  rcases hrel.exec_or_time with ⟨i, hi, hexec⟩ | ⟨n, rfl⟩
  · exact ⟨exec_blockInv hi hblock t hexec, exec_historyInv hi hblock.note hhist t hexec⟩
  · exact ⟨hblock.later n, { hhist with }⟩

/-! ### Reachable states -/

theorem Reachable.invariants {start s : State} (hr : Reachable start s) (hblock : BlockInv start) (hhist : HistoryInv start) :
    BlockInv s ∧ HistoryInv s := by
  induction hr with
  | refl => exact ⟨hblock, hhist⟩
  | tail _ hrel ih => exact everyInterleavingKeepsTheInvariant _ _ ih.1 ih.2 hrel

/-- Past PH_INIT a step leaves the calibration centre unless it is RST (10_state.md R39 e). -/
theorem Rel.centre_kept {s t : State} (h : Rel s t) (hph : s.ph ≠ 0#4) :
    (t.calX = s.calX ∧ t.calY = s.calY) ∨ exec .rst s = .next t := by
  rcases h.exec_or_time with ⟨i, hi, hexec⟩ | ⟨n, rfl⟩
  · by_cases hrst : i = .rst
    · exact .inr (hrst ▸ hexec)
    · have hinit : i ≠ .phInit := fun h => hph (by rw [h] at hi; exact hi)
      obtain ⟨_, _, hcentre, _⟩ := eachRegisterHasItsOwnWriters i s t hexec
      exact .inl (hcentre (by simp [hrst, hinit]))
  · exact .inl ⟨rfl, rfl⟩

/-- Settles O52: the invariant of every reachable state has the registers' part, and `Rel.centre_kept` is R39 e. -/
theorem reachableStatesKeepTheRegisterInvariants : Obligations.ReachableStatesKeepTheRegisterInvariants :=
  fun c x y hx hy s hr =>
    have hblock : BlockInv s := (hr.invariants (afterRst_blockInv hx hy []) (afterRst_historyInv c x y [])).1
    ⟨hblock.regs, Nat.le_of_lt_succ s.mel.isLt, fun _ hrel hph => hrel.centre_kept hph⟩

end Sys2Proof.Machine
end

section
/-! SUPPORT. The matrix buffer after PH_MBUF (20_memory.md R65). -/

namespace Sys2Proof.Machine

/-- Where PH_MBUF answers, it has rebuilt the buffer with a selected colour. -/
theorem execPhMbuf_next {s t : State} (h : execPhMbuf s = .next t) :
    ∃ colour, selectedColour s.cfg s.colSel = some colour ∧
      t = { s with mbuf := buildMatrixBuffer s.cfg s.cellRow s.cellCol colour, ph := 7#4 } := by
  obtain ⟨_, hanswer⟩ := whenLive_next h
  split at hanswer
  · next colour hcolour =>
    cases hanswer
    exact ⟨colour, hcolour, rfl⟩
  · cases hanswer

/-- Settles O30: the buffer is rebuilt from nothing with one write (`memRead_buildMatrixBuffer`), inside it (`serpIndex_lt`), of a
colour that is not 0 (`selectedColour_ne_zero`); outside the grid with none. -/
theorem matrixIsSingleCellLit : Obligations.MatrixIsSingleCellLit := fun s t ht => by
  obtain ⟨colour, hcolour, rfl⟩ := execPhMbuf_next ht
  refine ⟨fun hvalid => ?lit, fun hinvalid j => ?dark⟩
  case lit =>
    obtain ⟨hrow, hcol⟩ := cellValid_bounds hvalid
    refine ⟨serpIndex s.cellRow.toNat s.cellCol.toNat, serpIndex_lt hrow hcol, ?_, fun j hj => ?_⟩
    · simpa [memRead_buildMatrixBuffer, hvalid] using selectedColour_ne_zero hcolour
    · simp [memRead_buildMatrixBuffer, hj]
  case dark => simp [memRead_buildMatrixBuffer, hinvalid]

end Sys2Proof.Machine
end

section
/-! SUPPORT. The decoder and the encoder together (30_encoding.md R81 to R87, R94, R98), and the pseudo-operations (R97). -/

namespace Sys2Proof

/-! ### From an operation to its code and back -/

/-- The rows that carry themselves are those with an encoding of their own (R98). -/
theorem carrier_eq_self_iff (i : Instr) : i.carrier = i ↔ i.hasOwnCode = true := by
  cases i <;> simp [Instr.carrier, Instr.hasOwnCode]

/-- Operands can break the domain of `serp` alone, a row without an encoding of its own. -/
theorem wellFormed_of_hasOwnCode {i : Instr} (h : i.hasOwnCode = true) : i.wellFormed = true := by
  cases i with
  | serp r c => cases h
  | _ => rfl

theorem decodeStim_adv (n : BitVec 28) : decodeStim (1#4 ++ n) = .ok (.adv n) := by
  simp [decodeStim]

theorem decodeStim_joy (x y : Reading) : decodeStim (3#4 ++ x ++ y) = .ok (.joy x y) := by
  obtain ⟨hopc, hx, hy⟩ := joy_fields 3#4 x y
  simp [decodeStim, hopc, hx, hy]

/-- ADV and JOY pack their operands into the word; every other operation has one fixed code. -/
theorem decode_encode (i : Instr) : decode (encode i) = .ok i.carrier := by
  cases i with
  | adv n => exact decodeStim_adv n
  | joy x y => exact decodeStim_joy x y
  | _ => rfl

/-- Settles O2: every code decodes to its operation's carrier (`decode_encode`), and a row with an encoding of its own carries itself. -/
theorem decodeEncodeRoundTrip : Obligations.DecodeEncodeRoundTrip := fun i _ =>
  ⟨fun hown => by rw [decode_encode, (carrier_eq_self_iff i).mpr hown], fun _ => decode_encode i⟩

/-! ### From a code to its operation and back -/

/-- A JOY word is its opcode and its two readings (R85). -/
theorem joy_word (w : Word) : stimOpc w ++ joyX w ++ joyY w = w := by
  apply BitVec.eq_of_toNat_eq
  rw [append_toNat, append_toNat, stimOpc_toNat, joyX_toNat, joyY_toNat]
  omega

/-- The opcode chooses the row, and the word is its fields again (`stim_fields`, `joy_word`). -/
theorem encode_of_decodeStim {w : Word} {i : Instr} (h : decodeStim w = .ok i) : encode i = .stim w := by
  have hword := stim_fields w
  have hjoy := joy_word w
  unfold decodeStim at h
  split_ifs at h with hrst harg hadv hbtn hbtnA hbtnB hjoyOpc <;> cases h
  · rw [← hword, hrst, harg]; rfl
  · rw [hadv] at hword; exact congrArg Code.stim hword
  · rw [← hword, hbtn, hbtnA]; rfl
  · rw [← hword, hbtn, hbtnB]; rfl
  · rw [hjoyOpc] at hjoy; exact congrArg Code.stim hjoy

/-- The phase decoder and the encoder read one table (R86). -/
theorem encode_of_decodePhase {c : BitVec 4} {i : Instr} (h : decodePhase c = .ok i) : encode i = .phase c := by
  unfold decodePhase at h
  split at h <;> cases h <;> exact congrArg Code.phase (BitVec.eq_of_toNat_eq (Eq.symm ‹_›))

/-- The table of the note sequencer's codes (R87). -/
theorem decodeMState_cases {c : BitVec 3} {i : Instr} (h : decodeMState c = .ok i) :
    (c = 0#3 ∧ i = .mIdle) ∨ (c = 1#3 ∧ i = .mFetch) ∨ (c = 2#3 ∧ i = .mHigh) ∨ (c = 3#3 ∧ i = .mLow) ∨
    (c = 4#3 ∧ i = .mRest) ∨ (c = 5#3 ∧ i = .mGap) := by
  unfold decodeMState at h
  split at h <;> cases h <;> simp [BitVec.toNat_eq, ‹c.toNat = _›]

theorem encode_of_decode {c : Code} {i : Instr} (h : decode c = .ok i) : encode i = c := by
  cases c with
  | stim w => exact encode_of_decodeStim h
  | phase c => exact encode_of_decodePhase h
  | mstate c =>
    rcases decodeMState_cases h with ⟨rfl, rfl⟩ | ⟨rfl, rfl⟩ | ⟨rfl, rfl⟩ | ⟨rfl, rfl⟩ | ⟨rfl, rfl⟩ | ⟨rfl, rfl⟩ <;> rfl

/-- Settles O3: what decodes has that code (`encode_of_decode`), so decoding its code gives it back, and it carries itself. -/
theorem encodeDecodeRoundTrip : Obligations.EncodeDecodeRoundTrip := fun c i h => by
  have hcode : encode i = c := encode_of_decode h
  have hself : i.carrier = i := by
    have hback := decode_encode i
    rw [hcode, h] at hback
    exact (Except.ok.inj hback).symm
  have hown : i.hasOwnCode = true := (carrier_eq_self_iff i).mp hself
  exact ⟨hcode, wellFormed_of_hasOwnCode hown, hown⟩

/-! ### The refused stimulus words -/

/-- What R94 a reserves, by field: an argument of RST, a bit of BTN's argument above the button, an opcode above JOY's. -/
theorem decodeStim_error_iff (w : Word) : (∃ r, decodeStim w = .error r) ↔
    (stimOpc w = 0#4 ∧ stimArg w ≠ 0#28) ∨ (stimOpc w = 2#4 ∧ stimArg w ≠ 0#28 ∧ stimArg w ≠ 1#28) ∨
    (stimOpc w ≠ 0#4 ∧ stimOpc w ≠ 1#4 ∧ stimOpc w ≠ 2#4 ∧ stimOpc w ≠ 3#4) := by
  unfold decodeStim
  split_ifs <;> simp [*]

/-- Settles O4: the reserved fields (`decodeStim_error_iff`) read as the quotient and the remainder of the word by 2^28. -/
theorem reservedStimulusWordsExactly : Obligations.ReservedStimulusWordsExactly := fun w => by
  have hlt := w.isLt
  rw [show decode (.stim w) = decodeStim w from rfl, decodeStim_error_iff]
  simp only [ne_eq, BitVec.toNat_eq, stimOpc_toNat, stimArg_toNat, BitVec.toNat_ofNat]
  omega

/-- Settles O1: each word is the code of its operation, so this is `decode_encode` nine times. -/
theorem decodesWrittenOutWords : Obligations.DecodesWrittenOutWords :=
  ⟨decode_encode .rst, decode_encode (.adv 50000#28), decode_encode .btnA, decode_encode .btnB,
    decode_encode (.joy 4095#14 0#14), decode_encode (.joy 0#14 4095#14), decode_encode .phRgb, decode_encode .phSleep,
    decode_encode .mGap⟩

/-! ### The pseudo-operations -/

theorem pseudoAdvms_admitted {m : Nat} (h : m ≤ 268435) :
    ∃ n : BitVec 28, pseudoAdvms m = some (.adv n) ∧ n.toNat = 1000 * m :=
  ⟨_, if_pos h, Nat.mod_eq_of_lt (by omega)⟩

theorem pseudoTicks_admitted {k : Nat} (h : k ≤ 5368) :
    ∃ n : BitVec 28, pseudoTicks k = some (.adv n) ∧ n.toNat = 50000 * k :=
  ⟨_, if_pos h, Nat.mod_eq_of_lt (by omega)⟩

/-- Half of PERIOD is a reading, because PERIOD is at most 2^14. -/
theorem pseudoCenter_reading (c : Config) : ∃ x : Reading, pseudoCenter c = .joy x x ∧ x.toNat = c.period / 2 := by
  have := Machine.period_le c
  exact ⟨_, rfl, Nat.mod_eq_of_lt (by omega)⟩

/-- Settles O5: the bounds of R97 are those that keep an advance within the 28 bits of `arg`. -/
theorem pseudoOperationsExpand : Obligations.PseudoOperationsExpand :=
  ⟨fun _ => pseudoAdvms_admitted, fun _ h => if_neg (Nat.not_le.mpr h), fun _ => pseudoTicks_admitted,
    fun _ h => if_neg (Nat.not_le.mpr h), pseudoCenter_reading, rfl, rfl⟩

end Sys2Proof
end

section
/-! SUPPORT. The step that the code in `ms` selects (45_melody_sequencer.md R181; 30_encoding.md R87, R94). -/

namespace Sys2Proof.Machine

/-- PH_PLAY is the operation whose code is in `ms`, unless that is M_IDLE; held in reset both refuse. -/
theorem exec_phPlay_of_decode {s : State} {i : Instr} (h : decode (.mstate s.ms) = .ok i) (hi : i ≠ .mIdle) :
    exec .phPlay s = exec i s := by
  show execPhPlay s = exec i s
  rcases decodeMState_cases h with
    ⟨_, rfl⟩ | ⟨hms, rfl⟩ | ⟨hms, rfl⟩ | ⟨hms, rfl⟩ | ⟨hms, rfl⟩ | ⟨hms, rfl⟩
  · exact absurd rfl hi
  all_goals (rw [execPhPlay, hms]; rfl)

/-- The codes of `ms` that select no step. -/
theorem execPhPlay_noStep {s : State} (hlive : s.held = false) (hms : s.ms = 0#3 ∨ s.ms = 6#3 ∨ s.ms = 7#3) :
    execPhPlay s = .refused .noMainStep := by
  rw [execPhPlay, whenLive_live hlive]
  rcases hms with hms | hms | hms <;> rw [hms] <;> rfl

/-- Settles O35: the table of R87 is the one PH_PLAY selects by (`exec_phPlay_of_decode`). -/
theorem codeInMsSelectsTheNoteStep : Obligations.CodeInMsSelectsTheNoteStep := fun s hlive => by
  refine ⟨fun i => exec_phPlay_of_decode, execPhPlay_noStep hlive, fun hph => ?outside, fun hph => ?inside⟩
  case outside => exact (whenLive_live hlive _).trans (if_neg hph)
  case inside => exact (whenLive_live hlive _).trans (if_pos hph)

end Sys2Proof.Machine
end

section
/-! SUPPORT. The values of the contract functions (30_encoding.md R98; 41_coordinate_mapper.md R111, R115, R117;
42_matrix_addressing.md R130, R131, R133). -/

namespace Sys2Proof.Machine

/-! ### The mappings as numbers -/

theorem clamp_eq_max_min {lo hi : Int} (h : lo ≤ hi) (v : Int) : clamp v lo hi = max lo (min hi v) := by
  unfold clamp
  split
  · omega
  · split <;> omega

/-- The cursor coordinate of R111, on an extent that holds the glyph and its margins. -/
theorem cursorCoord_eq (c : Config) {ext : Nat} (hext : 16 ≤ ext) (v : Nat) :
    cursorCoord c ext v = max 4 (min ((ext : Int) - 12) (((v * ext / c.period : Nat) : Int) - 4)) := by
  simp only [cursorCoord, fixed_val, floorDiv]
  rw [clamp_eq_max_min (by omega)]
  omega

/-- Both coordinates fit their registers (`cursorCoord_bounds`). -/
theorem mapToDisplay_toNat (c : Config) (x y : Reading) :
    ((mapToDisplay c x y).1.toNat : Int) = cursorCoord c 128 x.toNat ∧
    ((mapToDisplay c x y).2.toNat : Int) = cursorCoord c 64 y.toNat := by
  have hx := cursorCoord_bounds c (ext := 128) (by decide) x.toNat
  have hy := cursorCoord_bounds c (ext := 64) (by decide) y.toNat
  simp only [mapToDisplay, fixed_val, BitVec.toNat_ofInt]
  omega

theorem matrixRow_double {c : Config} (h : c.rowVariant = .double) (y : Nat) :
    matrixRow c y = 4 - (((c.period - y) * 5 / c.period : Nat) : Int) := by
  simp [matrixRow, floorDiv, h]

theorem matrixRow_single {c : Config} (h : c.rowVariant = .single) (y : Nat) :
    matrixRow c y = 4 - ((y * 5 / c.period : Nat) : Int) := by
  simp [matrixRow, floorDiv, h]

/-- The row fits its signed register (`matrixRow_bounds`). -/
theorem mapToMatrix_row {c : Config} (x : Reading) {y : Reading} (hy : y.toNat < c.period) :
    (mapToMatrix c x y).1.toInt = matrixRow c y.toNat := by
  have hrow := matrixRow_bounds c hy
  simp only [mapToMatrix, BitVec.toInt_ofInt]
  exact Int.bmod_eq_of_le (by omega) (by omega)

theorem mapToMatrix_col {c : Config} {x : Reading} (y : Reading) (hx : x.toNat < c.period) :
    (mapToMatrix c x y).2.toNat = x.toNat * 5 / c.period := by
  have hcol := floorDiv_mul_lt 5 hx (by decide)
  simp only [mapToMatrix, matrixCol, fixed_val]
  exact Nat.mod_eq_of_lt (Nat.lt_trans hcol (by decide))

/-! ### The operations on operands with a stated result -/

theorem exec_mapToDisplay_stated {s : State} {x y : Reading} (h : readingsOk s x y = true) :
    exec (.mapToDisplay x y) s =
      .next { s with fnResult := some (.cursor (mapToDisplay s.cfg x y).1 (mapToDisplay s.cfg x y).2) } := by
  obtain ⟨hvalue, hcount⟩ := cursorOf_stated h
  simp only [exec, execMapToDisplay, hvalue, hcount]

theorem exec_mapToMatrix_stated {s : State} {x y : Reading} (h : readingsOk s x y = true) :
    exec (.mapToMatrix x y) s =
      .next { s with fnResult := some (.cell (mapToMatrix s.cfg x y).1 (mapToMatrix s.cfg x y).2) } := by
  obtain ⟨hvalue, hcount⟩ := cellOf_stated h
  simp only [exec, execMapToMatrix, hvalue, hcount]

/-- Settles O40: readings below PERIOD have stated results, and these fit their registers. -/
theorem mappingFunctionsReturnTheirValues : Obligations.MappingFunctionsReturnTheirValues := fun s x y hx hy => by
  have hok : readingsOk s x y = true := (readingsOk_iff s x y).mpr ⟨hx, hy⟩
  refine ⟨⟨_, _, exec_mapToDisplay_stated hok, ?curX, ?curY⟩,
    ⟨_, _, exec_mapToMatrix_stated hok, fun hdouble => ?double, fun hsingle => ?single, mapToMatrix_col y hx⟩⟩
  case curX => exact (mapToDisplay_toNat s.cfg x y).1.trans (cursorCoord_eq s.cfg (by decide) _)
  case curY => exact (mapToDisplay_toNat s.cfg x y).2.trans (cursorCoord_eq s.cfg (by decide) _)
  case double => rw [mapToMatrix_row x hy, matrixRow_double hdouble]
  case single => rw [mapToMatrix_row x hy, matrixRow_single hsingle]

/-! ### The matrix buffer and the serpentine index -/

theorem serpIndex_eq (r c : Nat) : serpIndex r c = 5 * r + (if r % 2 = 0 then 4 - c else c) := by
  unfold serpIndex
  split <;> rfl

theorem cellValid_iff (c : Config) (row col : BitVec 4) :
    cellValid c row col = true ↔ 0 ≤ row.toInt ∧ row.toInt < 5 ∧ col.toNat < 5 := by
  simp [cellValid, and_assoc]

theorem memWords_length (c : Config) (m : Memory) : (memWords c m).length = 25 := by simp [memWords]

theorem memWords_getElem? (c : Config) (m : Memory) {i : Nat} (hi : i < 25) : (memWords c m)[i]? = some (memRead m i) := by
  simp [memWords, List.getElem?_range hi]

theorem exec_serp_inside {s : State} {r c : BitVec 4} (hr : r.toNat ≤ 4) (hc : c.toNat ≤ 4) :
    exec (.serp r c) s = .next { s with fnResult := some (.index (serpIndex r.toNat c.toNat)) } := by
  obtain ⟨hindex, hcount⟩ := indexOf_stated (s := s) hr hc
  simp only [exec, execSerp, hindex, hcount]

/-- Outside the grid `serp` draws one free value (log entries 18 and 28). -/
theorem exec_serp_outside {s : State} {r c : BitVec 4} (h : 4 < r.toNat ∨ 4 < c.toNat) :
    exec (.serp r c) s = .next { s with fnResult := some (.index (indexOf s r c)), freeCount := s.freeCount + 1 } := by
  have hgrid : (serpRowOk r && serpColOk c) = false := by
    simp only [serpRowOk, serpColOk, Bool.and_eq_false_iff, decide_eq_false_iff_not]
    omega
  simp only [exec, execSerp, hgrid, countFree_free]

/-- Settles O41: the words of a built buffer (`memRead_buildMatrixBuffer`), and the index inside and outside the grid. -/
theorem matrixFunctionsReturnTheirValues : Obligations.MatrixFunctionsReturnTheirValues := by
  refine ⟨fun s row col colour => ⟨_, rfl, memWords_length _ _, fun i hi => ?word⟩,
    fun s r c => ⟨fun ⟨hr, hc⟩ => ?inside, fun hout => ⟨_, exec_serp_outside hout⟩⟩⟩
  case word => simp only [memWords_getElem? _ _ hi, memRead_buildMatrixBuffer, cellValid_iff, serpIndex_eq]
  case inside => rw [exec_serp_inside hr hc, serpIndex_eq]

/-! ### play -/

/-- Settles O42: `play` is the start action, with the code of its melody in `mel`. -/
theorem playFunctionStartsTheMelody : Obligations.PlayFunctionStartsTheMelody := fun s k code hlive hcode => by
  have hmel : melodyCode k = code := by
    rcases hcode with ⟨rfl, rfl⟩ | ⟨rfl, rfl⟩ | ⟨rfl, rfl⟩ <;> rfl
  subst hmel
  exact whenLive_live hlive _

end Sys2Proof.Machine
end

section
/-! SUPPORT. The coordinate mapper (41_coordinate_mapper.md R111 to R120): the coordinates and the cell as numbers, where the clamp takes
hold, when the cell is on the grid, and the phases that write them. -/

namespace Sys2Proof.Machine

/-! ### The cursor coordinate on one axis -/

section

variable (c : Config) {ext : Nat} (v : Nat)

/-- The lower clamp holds below the scaled value 9, OFFSET and MARGIN being 4. -/
theorem cursorCoord_eq_lower_iff (hext : 16 < ext) : cursorCoord c ext v = 4 ↔ v * ext < 9 * c.period := by
  have hp := period_ge c
  rw [cursorCoord_eq c (by omega), ← Nat.div_lt_iff_lt_mul (by omega)]
  omega

/-- The upper clamp holds from the scaled value `ext - 8` on, GLYPH being 8. -/
theorem cursorCoord_eq_upper_iff (hext : 16 < ext) :
    cursorCoord c ext v = (ext : Int) - 12 ↔ (ext - 8) * c.period ≤ v * ext := by
  have hp := period_ge c
  rw [cursorCoord_eq c (by omega), ← Nat.le_div_iff_mul_le (by omega)]
  omega

theorem cursorCoord_mono (hext : 16 ≤ ext) {v v' : Nat} (h : v ≤ v') : cursorCoord c ext v ≤ cursorCoord c ext v' := by
  have hquot : v * ext / c.period ≤ v' * ext / c.period := Nat.div_le_div_right (Nat.mul_le_mul_right ext h)
  rw [cursorCoord_eq c hext, cursorCoord_eq c hext]
  omega

end

/-! ### The matrix row -/

/-- The inverted reading scales to a full 5 at reading 0 alone. -/
theorem invertedRow_lt_iff (c : Config) (y : Nat) : (c.period - y) * 5 / c.period < 5 ↔ 1 ≤ y := by
  have hp := period_ge c
  rw [Nat.div_lt_iff_lt_mul (by omega)]
  omega

/-- With DOUBLE the row is on the grid unless the reading is 0 (R118). -/
theorem matrixRow_double_nonneg_iff {c : Config} (h : c.rowVariant = .double) (y : Nat) : 0 ≤ matrixRow c y ↔ 1 ≤ y := by
  rw [matrixRow_double h, ← invertedRow_lt_iff c y]
  omega

/-- With SINGLE it always is (R117). -/
theorem matrixRow_single_nonneg {c : Config} (h : c.rowVariant = .single) {y : Nat} (hy : y < c.period) :
    0 ≤ matrixRow c y := by
  have hquot : y * 5 / c.period < 5 := floorDiv_mul_lt 5 hy (by decide)
  rw [matrixRow_single h]
  omega

/-- Inverting the reading mirrors the quotient, unless the division is exact (R117): for `y * 5 = a + 1` it is `Nat.mul_sub_div`. -/
theorem invertedRow_eq_mirror {p y : Nat} (hy : y < p) (hexact : y * 5 % p ≠ 0) : (p - y) * 5 / p = 4 - y * 5 / p := by
  obtain ⟨a, ha⟩ : ∃ a, y * 5 = a + 1 := Nat.exists_eq_succ_of_ne_zero fun h0 => hexact (by rw [h0, Nat.zero_mod])
  have hquot : (a + 1) / p = a / p := Nat.succ_div_of_not_dvd fun hdvd => hexact (by rw [ha, Nat.mod_eq_zero_of_dvd hdvd])
  calc (p - y) * 5 / p
      _ = (p * 5 - (a + 1)) / p := by rw [Nat.sub_mul, ha]
      _ = 5 - (a / p + 1) := Nat.mul_sub_div a p 5 (by omega)
      _ = 4 - y * 5 / p := by rw [ha, hquot]; omega

theorem matrixRow_double_of_inexact {c : Config} (h : c.rowVariant = .double) {y : Nat} (hy : y < c.period)
    (hexact : y * 5 % c.period ≠ 0) : matrixRow c y = ((y * 5 / c.period : Nat) : Int) := by
  have hquot : y * 5 / c.period < 5 := floorDiv_mul_lt 5 hy (by decide)
  rw [matrixRow_double h, invertedRow_eq_mirror hy hexact]
  omega

/-- The cell of readings below PERIOD can leave the grid by a negative row only; the grid is the same in every configuration `d`. -/
theorem cellValid_mapToMatrix_iff (d : Config) {c : Config} {x y : Reading} (hx : x.toNat < c.period) (hy : y.toNat < c.period) :
    cellValid d (mapToMatrix c x y).1 (mapToMatrix c x y).2 = true ↔ 0 ≤ matrixRow c y.toNat := by
  obtain ⟨_, hrow, hcol⟩ := mapToMatrix_bounds c hx hy
  rw [mapToMatrix_row x hy] at hrow
  rw [cellValid_iff, mapToMatrix_row x hy]
  omega

/-! ### The values of the mappings, each axis by itself -/

theorem cursorOf_values (s : State) (x y : Reading) :
    (x.toNat < s.cfg.period →
      ((cursorOf s x y).1.toNat : Int) = max 4 (min 116 (((x.toNat * 128 / s.cfg.period : Nat) : Int) - 4))) ∧
    (y.toNat < s.cfg.period →
      ((cursorOf s x y).2.toNat : Int) = max 4 (min 52 (((y.toNat * 64 / s.cfg.period : Nat) : Int) - 4))) := by
  obtain ⟨haxisX, haxisY⟩ := cursorOf_axis s x y
  obtain ⟨hcurX, hcurY⟩ := mapToDisplay_toNat s.cfg x y
  refine ⟨fun hx => ?_, fun hy => ?_⟩
  · rw [haxisX hx, hcurX]; exact cursorCoord_eq s.cfg (by decide) _
  · rw [haxisY hy, hcurY]; exact cursorCoord_eq s.cfg (by decide) _

theorem cellOf_values (s : State) (x y : Reading) :
    (y.toNat < s.cfg.period → s.cfg.rowVariant = .double →
      (cellOf s x y).1.toInt = 4 - (((s.cfg.period - y.toNat) * 5 / s.cfg.period : Nat) : Int)) ∧
    (y.toNat < s.cfg.period → s.cfg.rowVariant = .single →
      (cellOf s x y).1.toInt = 4 - ((y.toNat * 5 / s.cfg.period : Nat) : Int)) ∧
    (x.toNat < s.cfg.period → (cellOf s x y).2.toNat = x.toNat * 5 / s.cfg.period) := by
  obtain ⟨haxisY, haxisX⟩ := cellOf_axis s x y
  refine ⟨fun hy hdouble => ?_, fun hy hsingle => ?_, fun hx => ?_⟩
  · rw [haxisY hy, mapToMatrix_row x hy, matrixRow_double hdouble]
  · rw [haxisY hy, mapToMatrix_row x hy, matrixRow_single hsingle]
  · rw [haxisX hx, mapToMatrix_col y hx]

/-! ### The phases -/

section

variable {s : State}

theorem exec_phMapd_live (hlive : s.held = false) :
    exec .phMapd s = .next
      { s with curX := (cursorOf s s.rdX s.rdY).1, curY := (cursorOf s s.rdX s.rdY).2, ph := 4#4,
               freeCount := countFree s (readingsOk s s.rdX s.rdY) } := whenLive_live hlive _

theorem exec_phMapm_live (hlive : s.held = false) :
    exec .phMapm s = .next
      { s with cellRow := (cellOf s s.rdX s.rdY).1, cellCol := (cellOf s s.rdX s.rdY).2, ph := 5#4,
               freeCount := countFree s (readingsOk s s.rdX s.rdY) } := whenLive_live hlive _

/-- Readings below PERIOD draw no free value. -/
theorem countFree_readings_inside {x y : Reading} (hx : x.toNat < s.cfg.period) (hy : y.toNat < s.cfg.period) :
    countFree s (readingsOk s x y) = s.freeCount := by
  rw [(readingsOk_iff s x y).mpr ⟨hx, hy⟩, countFree_stated]

end

/-- Settles O22: PH_MAPD writes the coordinates of the two readings (`cursorOf_values`) and draws no free value. -/
theorem displayMappingOfTheReading : Obligations.DisplayMappingOfTheReading := fun s hlive hx hy => by
  obtain ⟨hcurX, hcurY⟩ := cursorOf_values s s.rdX s.rdY
  refine ⟨_, _, ?_, hcurX hx, hcurY hy⟩
  rw [exec_phMapd_live hlive, countFree_readings_inside hx hy]

/-- Settles O23: the two clamps of a coordinate (`cursorCoord_eq_lower_iff`, `cursorCoord_eq_upper_iff`) on either extent. -/
theorem displayClampTakesHoldExactly : Obligations.DisplayClampTakesHoldExactly := fun c x y _ _ => by
  obtain ⟨hcurX, hcurY⟩ := mapToDisplay_toNat c x y
  have hlowX := cursorCoord_eq_lower_iff c (ext := 128) x.toNat (by decide)
  have hhighX := cursorCoord_eq_upper_iff c (ext := 128) x.toNat (by decide)
  have hlowY := cursorCoord_eq_lower_iff c (ext := 64) y.toNat (by decide)
  have hhighY := cursorCoord_eq_upper_iff c (ext := 64) y.toNat (by decide)
  simp only [BitVec.toNat_eq, BitVec.toNat_ofNat]
  omega

/-- Settles O24: each coordinate is `cursorCoord` of its own reading, which is non-decreasing and inside its bounds. -/
theorem displayMappingMonotoneAndBounded : Obligations.DisplayMappingMonotoneAndBounded := fun c x x' y y' hx _ hy _ => by
  obtain ⟨hcurX, hcurY⟩ := mapToDisplay_toNat c x y
  have hcurX' := (mapToDisplay_toNat c x' y).1
  have hcurY' := (mapToDisplay_toNat c x y').2
  have hmonoX := cursorCoord_mono c (ext := 128) (by decide) hx
  have hmonoY := cursorCoord_mono c (ext := 64) (by decide) hy
  have hboundX := cursorCoord_bounds c (ext := 128) (by decide) x.toNat
  have hboundY := cursorCoord_bounds c (ext := 64) (by decide) y.toNat
  exact ⟨rfl, rfl, by omega, by omega, by omega, by omega, by omega, by omega⟩

/-- Settles O25: PH_MAPM writes the cell of the two readings (`cellOf_values`) and draws no free value. -/
theorem matrixMappingOfTheReading : Obligations.MatrixMappingOfTheReading := fun s hlive hx hy => by
  obtain ⟨hdouble, hsingle, hcol⟩ := cellOf_values s s.rdX s.rdY
  refine ⟨_, _, ?_, hdouble hy, hsingle hy, hcol hx⟩
  rw [exec_phMapm_live hlive, countFree_readings_inside hx hy]

/-- Settles O26: the row is -1 to 4, and not negative exactly from reading 1 on (`matrixRow_double_nonneg_iff`). -/
theorem offGridOnlyAtReadingZero : Obligations.OffGridOnlyAtReadingZero := fun c x y hdouble hx hy => by
  obtain ⟨hrowLow, hrowHigh, hcol⟩ := mapToMatrix_bounds c hx hy
  have hgrid := matrixRow_double_nonneg_iff hdouble y.toNat
  rw [← Bool.not_eq_true, cellValid_mapToMatrix_iff c hx hy]
  rw [mapToMatrix_row x hy] at hrowLow hrowHigh ⊢
  omega

/-- Settles O27: with SINGLE the row is never negative, and the mirror is `matrixRow_double_of_inexact`. -/
theorem rowVariantsMirrorEachOther : Obligations.RowVariantsMirrorEachOther := fun c x y hx hy => by
  refine ⟨?valid, fun _ hexact => ?mirror⟩
  case valid =>
    exact (cellValid_mapToMatrix_iff c (c := { c with rowVariant := .single }) hx hy).mpr (matrixRow_single_nonneg rfl hy)
  case mirror =>
    have hdouble : (mapToMatrix { c with rowVariant := .double } x y).1.toInt = ((y.toNat * 5 / c.period : Nat) : Int) :=
      (mapToMatrix_row (c := { c with rowVariant := .double }) x hy).trans (matrixRow_double_of_inexact rfl hy hexact)
    have hsingle : (mapToMatrix { c with rowVariant := .single } x y).1.toInt = 4 - ((y.toNat * 5 / c.period : Nat) : Int) :=
      (mapToMatrix_row (c := { c with rowVariant := .single }) x hy).trans (matrixRow_single rfl y.toNat)
    exact ⟨hdouble, by rw [hdouble, hsingle]⟩

/-! ### The deadzone -/

theorem absDiff_eq_natAbs (a b : Nat) : absDiff a b = ((a : Int) - (b : Int)).natAbs := by
  unfold absDiff
  split <;> omega

theorem movementFlag_eq (c : Config) (rd cal : Reading) :
    movementFlag c rd cal = decide (250 < ((rd.toNat : Int) - (cal.toNat : Int)).natAbs) := by
  simp only [movementFlag, fixed_val, absDiff_eq_natAbs]

/-- Settles O28: each flag is the compare with DZ_THR (`movementFlag_eq`). -/
theorem deadzoneComparesWithTheCentre : Obligations.DeadzoneComparesWithTheCentre := fun s hlive => by
  rw [← movementFlag_eq s.cfg, ← movementFlag_eq s.cfg]
  exact whenLive_live hlive _

end Sys2Proof.Machine
end

section
/-! SUPPORT. Values outside the rules (log entries 10, 18, 19, 28, 29): the operations that draw a free value, and the fetches that are
refused. -/

namespace Sys2Proof.Machine

section

variable {s : State}

/-- A reading at or above PERIOD draws one free value. -/
theorem countFree_readings_outside {x y : Reading} (h : s.cfg.period ≤ x.toNat ∨ s.cfg.period ≤ y.toNat) :
    countFree s (readingsOk s x y) = s.freeCount + 1 := by
  have hfree : readingsOk s x y = false := by
    rw [← Bool.not_eq_true, readingsOk_iff]
    omega
  rw [hfree, countFree_free]

theorem exec_mapToDisplay_outside {x y : Reading} (h : s.cfg.period ≤ x.toNat ∨ s.cfg.period ≤ y.toNat) :
    exec (.mapToDisplay x y) s =
      .next { s with fnResult := some (.cursor (cursorOf s x y).1 (cursorOf s x y).2), freeCount := s.freeCount + 1 } := by
  rw [← countFree_readings_outside h]
  rfl

theorem exec_mapToMatrix_outside {x y : Reading} (h : s.cfg.period ≤ x.toNat ∨ s.cfg.period ≤ y.toNat) :
    exec (.mapToMatrix x y) s =
      .next { s with fnResult := some (.cell (cellOf s x y).1 (cellOf s x y).2), freeCount := s.freeCount + 1 } := by
  rw [← countFree_readings_outside h]
  rfl

theorem exec_phMapd_outside (hlive : s.held = false) (h : s.cfg.period ≤ s.rdX.toNat ∨ s.cfg.period ≤ s.rdY.toNat) :
    exec .phMapd s = .next
      { s with curX := (cursorOf s s.rdX s.rdY).1, curY := (cursorOf s s.rdX s.rdY).2, ph := 4#4,
               freeCount := s.freeCount + 1 } := by
  rw [exec_phMapd_live hlive, countFree_readings_outside h]

theorem exec_phMapm_outside (hlive : s.held = false) (h : s.cfg.period ≤ s.rdX.toNat ∨ s.cfg.period ≤ s.rdY.toNat) :
    exec .phMapm s = .next
      { s with cellRow := (cellOf s s.rdX s.rdY).1, cellCol := (cellOf s s.rdX s.rdY).2, ph := 5#4,
               freeCount := s.freeCount + 1 } := by
  rw [exec_phMapm_live hlive, countFree_readings_outside h]

/-! ### The note sequencer -/

/-- M_LOW at its deadline ends the low half. -/
theorem exec_mLow_due (hlive : s.held = false) (hdue : s.dl ≤ s.T) : exec .mLow s = .next (lowEnd s) :=
  (whenLive_live hlive _).trans (whenDue_due hdue _)

/-- M_GAP at its deadline ends the gap. -/
theorem exec_mGap_due (hlive : s.held = false) (hdue : s.dl ≤ s.T) : exec .mGap s = .next (gapEnd s) :=
  (whenLive_live hlive _).trans (whenDue_due hdue _)

/-- At `cyc` = 0 the next cycle begins, its count free. -/
theorem lowEnd_of_cyc_zero (h : s.cyc = 0#32) :
    lowEnd s = { setBuzz s true with
      cyc := Config.freeCyc s.freeCount, freeCount := s.freeCount + 1, dl := s.T + s.half.toNat, ms := 2#3 } := if_pos h

/-- At `ni` = 255 the next entry is fetched, its index free. -/
theorem gapEnd_of_ni_last (h : s.ni = 255#8) :
    gapEnd s = { s with ni := Config.freeNi s.freeCount, freeCount := s.freeCount + 1, ms := 1#3 } := if_pos h

theorem fetchNote_of_mel_zero (h : s.mel = 0#2) : fetchNote s = .refused .reservedMel := by
  rw [fetchNote, melodyOfCode_eq_none.mpr h]

theorem fetchNote_past_the_end {k : MelodyNo} (hk : melodyOfCode s.mel = some k) (hni : melodyLen s.cfg k < s.ni.toNat) :
    fetchNote s = .refused .noteEntryMissing := by
  have hnone : noteRead s.cfg k s.ni.toNat = none := List.getElem?_eq_none (Nat.le_of_lt hni)
  simp only [fetchNote, hk, if_neg (Nat.ne_of_gt hni), hnone]

end

/-- Settles O39: the mappings draw one free value and keep the axis that has a stated one (`cursorOf_values`, `cellOf_values`); the note
sequencer's counts likewise; the fetch is refused. -/
theorem valuesOutsideTheRulesRunOrStop : Obligations.ValuesOutsideTheRulesRunOrStop := fun s => by
  refine ⟨fun x y hout => ⟨?display, ?matrix⟩, fun hlive hout => ⟨?phMapd, ?phMapm⟩, fun hlive hdue hcyc => ?mLow,
    fun hlive hdue hni => ?mGap, fun hlive hmel => ?noMelody, fun hlive k hk hni => ?noEntry⟩
  case display => exact ⟨_, _, exec_mapToDisplay_outside hout, cursorOf_values s x y⟩
  case matrix => exact ⟨_, _, exec_mapToMatrix_outside hout, cellOf_values s x y⟩
  case phMapd => exact ⟨_, _, exec_phMapd_outside hlive hout, cursorOf_values s s.rdX s.rdY⟩
  case phMapm => exact ⟨_, _, exec_phMapm_outside hlive hout, cellOf_values s s.rdX s.rdY⟩
  case mLow =>
    refine ⟨Config.freeCyc s.freeCount, ?_⟩
    rw [exec_mLow_due hlive hdue, lowEnd_of_cyc_zero hcyc]
    rfl
  case mGap =>
    refine ⟨Config.freeNi s.freeCount, ?_⟩
    rw [exec_mGap_due hlive hdue, gapEnd_of_ni_last hni]
  case noMelody => exact (whenLive_live hlive _).trans (fetchNote_of_mel_zero hmel)
  case noEntry => exact (whenLive_live hlive _).trans (fetchNote_past_the_end hk hni)

end Sys2Proof.Machine
end

section
/-! SUPPORT. The matrix addressing (42_matrix_addressing.md R131 to R135; 46_main_sequencer.md R215): the serpentine index and its inverse,
and the phases that build the buffer, send it and draw the cursor. -/

namespace Sys2Proof.Machine

/-! ### The serpentine index and its inverse -/

/-- The row of a serpentine index, five cells in each row. -/
theorem serpIndex_div_five (r : Nat) {c : Nat} (hc : c < 5) : serpIndex r c / 5 = r := by
  rw [serpIndex_eq]
  split <;> omega

/-- The place in its row: even rows run from the last column down, odd ones from the first up. -/
theorem serpIndex_mod_five (r : Nat) {c : Nat} (hc : c < 5) : serpIndex r c % 5 = if r % 2 = 0 then 4 - c else c := by
  rw [serpIndex_eq]
  split <;> omega

theorem unserp_serpIndex (r : Nat) {c : Nat} (hc : c < 5) : unserp (serpIndex r c) = (r, c) := by
  rw [unserp, serpIndex_div_five r hc, serpIndex_mod_five r hc, Prod.mk.injEq]
  refine ⟨rfl, ?_⟩
  split <;> omega

theorem unserp_row_lt {i : Nat} (hi : i < 25) : (unserp i).1 < 5 := by
  simp only [unserp]
  omega

theorem unserp_col_lt (i : Nat) : (unserp i).2 < 5 := by
  simp only [unserp]
  split <;> omega

/-- Row and place in the row make up the index, and mirroring an even row twice changes nothing. -/
theorem serpIndex_unserp (i : Nat) : serpIndex (unserp i).1 (unserp i).2 = i := by
  simp only [serpIndex_eq, unserp]
  split <;> omega

/-- Settles O31: the two compositions are `unserp_serpIndex` and `serpIndex_unserp`, and both functions stay in their ranges. -/
theorem serpentineIndexIsABijection : Obligations.SerpentineIndexIsABijection := by
  refine ⟨fun r c hr hc => ⟨?formula, ?inside, unserp_serpIndex r (by omega)⟩,
    fun i hi => ⟨rfl, rfl, Nat.le_of_lt_succ (unserp_row_lt (by omega)), Nat.le_of_lt_succ (unserp_col_lt i),
      serpIndex_unserp i⟩⟩
  case formula =>
    have heven : r = 0 ∨ r = 2 ∨ r = 4 ↔ r % 2 = 0 := by omega
    simp only [serpIndex, heven]
  case inside => exact Nat.le_of_lt_succ (serpIndex_lt (by omega) (by omega))

/-! ### The phases -/

section

variable {s : State}

/-- The codes 0, 1 and 2 select COLOR_1, COLOR_2 and COLOR_3 (30_encoding.md R89). -/
theorem selectedColour_of_code {c : Config} {v : BitVec 2} {colour : Word}
    (h : v = 0#2 ∧ colour = c.colour1 ∨ v = 1#2 ∧ colour = c.colour2 ∨ v = 2#2 ∧ colour = c.colour3) :
    selectedColour c v = some colour := by
  rcases h with ⟨rfl, rfl⟩ | ⟨rfl, rfl⟩ | ⟨rfl, rfl⟩ <;> rfl

theorem exec_phMbuf_selected (hlive : s.held = false) {colour : Word} (h : selectedColour s.cfg s.colSel = some colour) :
    exec .phMbuf s = .next { s with mbuf := buildMatrixBuffer s.cfg s.cellRow s.cellCol colour, ph := 7#4 } := by
  simp only [exec, execPhMbuf, whenLive_live hlive, h]

theorem exec_phMbuf_reserved (hlive : s.held = false) (h : s.colSel = 3#2) :
    exec .phMbuf s = .refused .reservedColSel := by
  have hnone : selectedColour s.cfg s.colSel = none := by rw [h]; rfl
  simp only [exec, execPhMbuf, whenLive_live hlive, hnone]

theorem exec_phMsend_live (hlive : s.held = false) :
    exec .phMsend s = .next { s with out := s.out ++ [⟨s.T, .mx (memWords s.cfg s.mbuf)⟩], ph := 8#4 } :=
  whenLive_live hlive _

theorem exec_phDraw_live (hlive : s.held = false) :
    exec .phDraw s = .next { s with out := s.out ++ [⟨s.T, .draw s.curX s.curY⟩], ph := 9#4 } := whenLive_live hlive _

end

/-- Settles O29: PH_MBUF stores the buffer built from the selected colour, which is canonical (`buildMatrixBuffer_wf`) and holds that
colour at the index of a valid cell only (`memRead_buildMatrixBuffer`). -/
theorem matrixBufferHoldsTheActiveCell : Obligations.MatrixBufferHoldsTheActiveCell := fun s hlive => by
  refine ⟨fun colour hcode => ⟨_, exec_phMbuf_selected hlive (selectedColour_of_code hcode), buildMatrixBuffer_wf _ _ _ _,
    fun hgrid i => ?lit, fun hoff i => ?dark⟩, exec_phMbuf_reserved hlive⟩
  case lit =>
    have hvalid : cellValid s.cfg s.cellRow s.cellCol = true := (cellValid_iff _ _ _).mpr hgrid
    simp only [memRead_buildMatrixBuffer, hvalid, true_and, serpIndex_eq]
  case dark =>
    have hinvalid : ¬ cellValid s.cfg s.cellRow s.cellCol = true := mt (cellValid_iff _ _ _).mp hoff
    rw [memRead_buildMatrixBuffer, if_neg fun hlit => hinvalid hlit.1]

/-- Settles O32: the words that PH_MSEND sends are the buffer's 25 in index order (`memWords_length`, `memWords_getElem?`). -/
theorem sendAndDrawEmitTheirEvents : Obligations.SendAndDrawEmitTheirEvents := fun s hlive =>
  ⟨⟨memWords s.cfg s.mbuf, exec_phMsend_live hlive, memWords_length s.cfg s.mbuf, fun _ hi => memWords_getElem? s.cfg s.mbuf hi⟩,
    exec_phDraw_live hlive⟩

end Sys2Proof.Machine
end

section
/-! SUPPORT. The colour cycle (43_rgb_cycle.md R147, R153): PH_RGB by its three decisions, and who else writes the cycle's registers. -/

namespace Sys2Proof.Machine

/-- Writing the LEDs off is an event exactly where one of them was lit (R27). -/
theorem ledEvents_dark (s : State) : ledEvents s false false false =
    if s.ledR ∨ s.ledG ∨ s.ledB then [⟨s.T, .led false false false⟩] else [] := by
  have hdark : (s.ledR = false ∧ s.ledG = false ∧ s.ledB = false) ↔ ¬ (s.ledR ∨ s.ledG ∨ s.ledB) := by
    simp only [not_or, Bool.not_eq_true]
  simp only [ledEvents, hdark, ite_not]

section

variable {s : State}

/-! ### The decision -/

theorem rgbStep_of_disabled (hen : s.rgbEn = false) : rgbStep s = .next (setLeds s false false false) := by
  simp [rgbStep, hen]

theorem rgbStep_of_not_due (hen : s.rgbEn = true) (hwait : s.T < s.rgbLast + 300000) : rgbStep s = .next s := by
  have hdue : ¬ rgbDue s = true := mt (rgbDue_iff s).mp (Nat.not_le.mpr hwait)
  simp [rgbStep, hen, hdue]

theorem rgbStep_of_due (hen : s.rgbEn = true) (hdue : s.rgbLast + 300000 ≤ s.T) : rgbStep s = rgbFire s := by
  simp [rgbStep, hen, (rgbDue_iff s).mpr hdue]

/-! ### The phase -/

theorem exec_phRgb_live (hlive : s.held = false) : exec .phRgb s = thenPhase 2#4 (rgbStep s) := whenLive_live hlive _

/-- Disabled: dark, and nothing of the cycle itself written, whatever `T` is. -/
theorem exec_phRgb_of_disabled (hlive : s.held = false) (hen : s.rgbEn = false) :
    exec .phRgb s = .next { setLeds s false false false with ph := 2#4 } := by
  rw [exec_phRgb_live hlive, rgbStep_of_disabled hen]
  rfl

theorem exec_phRgb_of_not_due (hlive : s.held = false) (hen : s.rgbEn = true) (hwait : s.T < s.rgbLast + 300000) :
    exec .phRgb s = .next { s with ph := 2#4 } := by
  rw [exec_phRgb_live hlive, rgbStep_of_not_due hen hwait]
  rfl

theorem exec_phRgb_of_due (hlive : s.held = false) (hen : s.rgbEn = true) (hdue : s.rgbLast + 300000 ≤ s.T) :
    exec .phRgb s = thenPhase 2#4 (rgbFire s) := by
  rw [exec_phRgb_live hlive, rgbStep_of_due hen hdue]

end

/-- Settles O21: the three decisions are `exec_phRgb_of_due`, `exec_phRgb_of_not_due` and `exec_phRgb_of_disabled`; a firing is read off
its table by the code in `rgb_state`. -/
theorem colourCycleStep : Obligations.ColourCycleStep := fun s hlive => by
  refine ⟨fun hen helapsed => ?due, fun hen helapsed => exec_phRgb_of_not_due hlive hen (by omega), fun hen => ?disabled⟩
  case due =>
    have hfire : exec .phRgb s = thenPhase 2#4 (rgbFire s) := exec_phRgb_of_due hlive hen (by omega)
    refine ⟨fun hblue => ?_, fun hred => ?_, fun hgreen => ?_, fun hreserved => ?_⟩
    · rw [hfire, rgbFire, hblue]; rfl
    · rw [hfire, rgbFire, hred]; rfl
    · rw [hfire, rgbFire, hgreen]; rfl
    · rw [hfire, rgbFire, hreserved]; rfl
  case disabled =>
    rw [exec_phRgb_of_disabled hlive hen, ← ledEvents_dark]
    rfl

/-- Settles O46: RST apart, the cycle's registers are in the footprint of PH_RGB alone (`exec_framed`), and disabled that writes the
LEDs and `ph` only. -/
theorem disabledCycleNeverAdvances : Obligations.DisabledCycleNeverAdvances := fun i s t ht hrst hen => by
  cases i with
  | rst => exact absurd rfl hrst
  | phRgb =>
    obtain ⟨hlive, _⟩ := whenLive_next ht
    rw [exec_phRgb_of_disabled hlive hen] at ht
    cases ht
    exact ⟨rfl, rfl⟩
  | _ =>
    rw [exec_framed _ s t ht]
    exact ⟨rfl, rfl⟩

end Sys2Proof.Machine
end

section
/-! SUPPORT. The debounce gate and the two button actions (44_debounce_mode.md R161 to R166): an EDGE step by the gate's two states, a
press of each button as an equation, and presses with waits between them. -/

namespace Sys2Proof.Machine

section

variable {s t : State} {btn : Button}

/-! ### The gate -/

theorem edgeStep_of_ready (hready : s.debLast + 200000 ≤ s.T) (btn : Button) :
    edgeStep s btn = buttonAction (acceptEdge s btn) btn := if_pos ((debReady_iff s).mpr hready)

theorem edgeStep_of_lockout (hlock : s.T < s.debLast + 200000) (btn : Button) : edgeStep s btn = .next (emit s (.rej btn)) :=
  if_neg (mt (debReady_iff s).mp (Nat.not_le.mpr hlock))

theorem exec_press (s : State) (btn : Button) : exec (pseudoPress btn) s = whenLive s (edgeStep s btn) := by
  cases btn <;> rfl

theorem exec_press_of_ready (hlive : s.held = false) (hready : s.debLast + 200000 ≤ s.T) (btn : Button) :
    exec (pseudoPress btn) s = buttonAction (acceptEdge s btn) btn := by
  rw [exec_press, whenLive_live hlive, edgeStep_of_ready hready]

theorem exec_press_of_lockout (hlive : s.held = false) (hlock : s.T < s.debLast + 200000) (btn : Button) :
    exec (pseudoPress btn) s = .next (emit s (.rej btn)) := by
  rw [exec_press, whenLive_live hlive, edgeStep_of_lockout hlock]

/-- The action of a button leaves the gate's two inputs alone. -/
theorem buttonAction_keepsGate (s : State) (btn : Button) :
    Answers (fun t => t.T = s.T ∧ t.debLast = s.debLast) (buttonAction s btn) := fun t ht => by
  cases btn with
  | a => rw [buttonAction_a] at ht; cases ht; exact ⟨rfl, rfl⟩
  | b => obtain ⟨k, _, rfl⟩ := buttonAction_b_next ht; exact ⟨setMelreq_T _ k true, setMelreq_debLast _ k true⟩

/-- What a press that answers does to the gate: accepted, `deb_last` becomes `T`; rejected, it stays (R162). -/
theorem press_gate (h : exec (pseudoPress btn) s = .next t) :
    t.T = s.T ∧ (s.debLast + 200000 ≤ s.T ∧ t.debLast = s.T ∨ s.T < s.debLast + 200000 ∧ t.debLast = s.debLast) := by
  rw [exec_press] at h
  rcases edgeStep_next (whenLive_next h).2 with ⟨hlock, rfl⟩ | ⟨hready, hact⟩
  · exact ⟨rfl, .inr ⟨hlock, rfl⟩⟩
  · obtain ⟨hT, hdeb⟩ := buttonAction_keepsGate _ btn t hact
    exact ⟨hT, .inl ⟨hready, hdeb⟩⟩

/-! ### Button B -/

theorem exists_selectedMelody {v : BitVec 2} (h : v ≠ 3#2) : ∃ k, selectedMelody v = some k := by
  have hlegal : v = 0#2 ∨ v = 1#2 ∨ v = 2#2 := by bv_omega
  rcases hlegal with rfl | rfl | rfl
  · exact ⟨.one, rfl⟩
  · exact ⟨.two, rfl⟩
  · exact ⟨.three, rfl⟩

theorem buttonAction_b_of_selected {k : MelodyNo} (hk : selectedMelody s.sel = some k) :
    buttonAction s .b = .next (setMelreq { s with colSel := s.sel, sel := nextOfThree s.sel } k true) := by
  simp only [buttonAction, hk]

theorem buttonAction_b_reserved (hsel : s.sel = 3#2) : buttonAction s .b = .refused .reservedSel := by
  have hnone : selectedMelody s.sel = none := by rw [hsel]; rfl
  simp only [buttonAction, hnone]

/-- The state after an accepted press of button B at selection `v`, which requests melody `k` (R164). -/
def afterPressB (s : State) (v : BitVec 2) (k : MelodyNo) : State :=
  setMelreq { acceptEdge s .b with colSel := v, sel := nextOfThree v } k true

theorem afterPressB_debLast (s : State) (v : BitVec 2) (k : MelodyNo) : (afterPressB s v k).debLast = s.T :=
  setMelreq_debLast _ k true

theorem afterPressB_out (s : State) (v : BitVec 2) (k : MelodyNo) : (afterPressB s v k).out = s.out ++ [⟨s.T, .acc .b⟩] :=
  setMelreq_out _ k true

theorem exec_btnB_of_ready (hlive : s.held = false) (hready : s.debLast + 200000 ≤ s.T) {v : BitVec 2} (hsel : s.sel = v)
    {k : MelodyNo} (hk : selectedMelody v = some k) : exec .btnB s = .next (afterPressB s v k) := by
  subst hsel
  exact (exec_press_of_ready hlive hready .b).trans (buttonAction_b_of_selected hk)

theorem exec_btnB_reserved (hlive : s.held = false) (hready : s.debLast + 200000 ≤ s.T) (hsel : s.sel = 3#2) :
    exec .btnB s = .refused .reservedSel :=
  (exec_press_of_ready hlive hready .b).trans (buttonAction_b_reserved hsel)

end

/-- Settles O16: the gate lets the edge through and the action writes the LEDs off (`ledEvents_dark`). -/
theorem buttonATogglesTheCycle : Obligations.ButtonATogglesTheCycle := fun s hlive hready => by
  have hout : (s.out ++ [⟨s.T, .acc .a⟩]) ++ ledEvents s false false false =
      s.out ++ ⟨s.T, .acc .a⟩ :: ledEvents s false false false := List.append_assoc _ _ _
  rw [← ledEvents_dark, ← hout]
  exact exec_press_of_ready hlive hready .a

/-- Settles O17: the row of the selected melody at each code of `sel` (`exec_btnB_of_ready`). -/
theorem buttonBSelectsAndRequests : Obligations.ButtonBSelectsAndRequests := fun _ hlive hready =>
  ⟨fun hfirst => exec_btnB_of_ready hlive hready hfirst rfl, fun hsecond => exec_btnB_of_ready hlive hready hsecond rfl,
    fun hthird => exec_btnB_of_ready hlive hready hthird rfl, exec_btnB_reserved hlive hready⟩

/-- Settles O15: accepted, the button's whole answer is known (O16, `exec_btnB_of_ready`); rejected, the press only records itself. -/
theorem debounceGateDecidesOnElapsedTime : Obligations.DebounceGateDecidesOnElapsedTime := fun s hlive => by
  refine ⟨fun helapsed => ?accepted, fun helapsed => ?rejected⟩
  case accepted =>
    have hready : s.debLast + 200000 ≤ s.T := by omega
    refine ⟨⟨_, _, buttonATogglesTheCycle s hlive hready, rfl, rfl⟩, fun hsel => ?_⟩
    obtain ⟨k, hk⟩ := exists_selectedMelody hsel
    exact ⟨_, [], exec_btnB_of_ready hlive hready rfl hk, afterPressB_debLast s _ k, afterPressB_out s _ k⟩
  case rejected =>
    have hlock : s.T < s.debLast + 200000 := by omega
    exact ⟨exec_press_of_lockout hlive hlock .a, exec_press_of_lockout hlive hlock .b⟩

/-- Settles O18: `gateState_ready` and `gateState_lockout` read the gate as a comparison of `T` with `deb_last`, and `press_gate` says what
an edge does to the two. -/
theorem gateIsATwoStateMachine : Obligations.GateIsATwoStateMachine := by
  refine ⟨fun s => ⟨?elapsed, fun i t hi ht => ?edge⟩, fun _ _ _ => gateState_ready _, fun c x y tr n => ?reset⟩
  case elapsed => rw [gateState_ready]; omega
  case edge =>
    obtain ⟨btn, rfl⟩ : ∃ btn, i = pseudoPress btn := by
      rcases hi with rfl | rfl
      · exact ⟨.a, rfl⟩
      · exact ⟨.b, rfl⟩
    obtain ⟨hT, hgate⟩ := press_gate ht
    simp only [gateState_ready, gateState_lockout]
    omega
  case reset =>
    rw [gateState_lockout]
    exact iff_of_eq (congrArg (n < ·) (Nat.zero_add _))

/-! ### Presses of button B with waits between them (R166) -/

/-- `s` after a wait of `w` microseconds in which every request flag was consumed. -/
def waitConsumed (w : Nat) (s : State) : State :=
  { s with T := s.T + w, melreq1 := false, melreq2 := false, melreq3 := false }

/-- `t` as an accepted press at selection `v` leaves it, the flag of melody `k` alone set. -/
structure PressedAt (v : BitVec 2) (k : MelodyNo) (t : State) : Prop where
  live : t.held = false
  past : t.debLast ≤ t.T
  colSel : t.colSel = v
  sel : t.sel = nextOfThree v
  flag1 : t.melreq1 = decide (k = .one)
  flag2 : t.melreq2 = decide (k = .two)
  flag3 : t.melreq3 = decide (k = .three)

/-- A press 200 ms or more after the last edge, the flags consumed, is accepted and sets one flag. -/
theorem pressB_after_wait {s : State} (hlive : s.held = false) (hpast : s.debLast ≤ s.T) {w : Nat} (hw : 200000 ≤ w)
    {v : BitVec 2} (hsel : s.sel = v) {k : MelodyNo} (hk : selectedMelody v = some k) :
    ∃ t, exec .btnB (waitConsumed w s) = .next t ∧ PressedAt v k t := by
  have hready : (waitConsumed w s).debLast + 200000 ≤ (waitConsumed w s).T := Nat.add_le_add hpast hw
  refine ⟨_, exec_btnB_of_ready (s := waitConsumed w s) hlive hready hsel hk, ?_⟩
  cases k <;> exact ⟨hlive, Nat.le_refl _, rfl, rfl, rfl, rfl, rfl⟩

/-- Settles O19: five times `pressB_after_wait`, each press at the selection the one before left. -/
theorem selectionSequenceOverFivePresses : Obligations.SelectionSequenceOverFivePresses := by
  rintro c x y tr w0 w1 w2 w3 w4 hw0 hw1 hw2 hw3 hw4 _ rfl
  obtain ⟨t0, ht0, p0⟩ := pressB_after_wait (s := State.afterRst c x y tr) rfl (Nat.le_refl _) hw0 (v := 0#2) rfl (k := .one) rfl
  obtain ⟨t1, ht1, p1⟩ := pressB_after_wait p0.live p0.past hw1 (v := 1#2) p0.sel (k := .two) rfl
  obtain ⟨t2, ht2, p2⟩ := pressB_after_wait p1.live p1.past hw2 (v := 2#2) p1.sel (k := .three) rfl
  obtain ⟨t3, ht3, p3⟩ := pressB_after_wait p2.live p2.past hw3 (v := 0#2) p2.sel (k := .one) rfl
  obtain ⟨t4, ht4, p4⟩ := pressB_after_wait p3.live p3.past hw4 (v := 1#2) p3.sel (k := .two) rfl
  refine ⟨t0, t1, t2, t3, t4, ht0, ht1, ht2, ht3, ht4, ?_, ?_, ?_, ?_, ?_⟩
  · rw [p0.colSel, p1.colSel, p2.colSel, p3.colSel, p4.colSel]
  · rw [p0.sel, p1.sel, p2.sel, p3.sel, p4.sel]; rfl
  · rw [p0.flag1, p1.flag1, p2.flag1, p3.flag1, p4.flag1]; rfl
  · rw [p0.flag2, p1.flag2, p2.flag2, p3.flag2, p4.flag2]; rfl
  · rw [p0.flag3, p1.flag3, p2.flag3, p3.flag3, p4.flag3]; rfl

end Sys2Proof.Machine
end

section
/-! SUPPORT. The service slots and the note sequencer's operations by their cases (45_melody_sequencer.md R182 to R192; 46_main_sequencer.md
R213, R216 to R219): a slot by its flag, the fetch by what it finds at `ni`, a wait at its deadline. -/

namespace Sys2Proof.Machine

/-! ### Codes and note words -/

theorem noteFreq_toNat (w : Word) : (noteFreq w).toNat = w.toNat / 65536 := by
  have hw := w.isLt
  rw [noteFreq, BitVec.extractLsb'_toNat, Nat.shiftRight_eq_div_pow]
  omega

theorem noteDur_toNat (w : Word) : (noteDur w).toNat = w.toNat % 65536 := by
  simp [noteDur, BitVec.extractLsb'_toNat]

theorem noteCycles_eq (w : Word) :
    toneCycles (noteFreq w).toNat (noteDur w).toNat = w.toNat / 65536 * (w.toNat % 65536) / 1000 := by
  rw [noteFreq_toNat, noteDur_toNat]
  rfl

theorem noteHalf_eq (w : Word) : toneHalf (noteFreq w).toNat = 500000 / (w.toNat / 65536) := by
  rw [noteFreq_toNat]
  rfl

/-- The rest test is made on the frequency field alone (R184). -/
theorem noteFreq_eq_rest_iff (c : Config) (w : Word) : noteFreq w = c.restMark.val ↔ w.toNat / 65536 = 0 := by
  rw [fixed_val, ← noteFreq_toNat]
  exact BitVec.toNat_eq

/-- The codes of the note sequencer's waits. -/
theorem waitCode_cases {c : BitVec 3} (hlo : 2 ≤ c.toNat) (hhi : c.toNat ≤ 5) : c = 2#3 ∨ c = 3#3 ∨ c = 4#3 ∨ c = 5#3 := by
  revert c
  decide

/-- The codes that select a step of the note sequencer (R181). -/
theorem stepCode_cases {c : BitVec 3} (hlo : c ≠ 0#3) (hhi : c.toNat ≤ 5) : c = 1#3 ∨ (2 ≤ c.toNat ∧ c.toNat ≤ 5) := by
  revert c
  decide

section

variable {s : State}

/-! ### The service slots -/

theorem setMelreq_self {k : MelodyNo} {v : Bool} (h : melreq s k = v) : setMelreq s k v = s := by
  subst h
  cases k <;> rfl

/-- A set flag starts the melody; it stays set exactly with MELREQ_CLEAR = END (R216). -/
theorem serviceSlot_of_set {k : MelodyNo} (h : melreq s k = true) :
    serviceSlot s k = startMelody (setMelreq s k (decide (s.cfg.melreqClear = .atEnd))) k := by
  rw [serviceSlot, if_pos h]
  cases s.cfg.melreqClear with
  | start => rfl
  | atEnd => exact congrArg (startMelody · k) (setMelreq_self h).symm

theorem serviceSlot_of_clear {k : MelodyNo} (h : melreq s k = false) : serviceSlot s k = afterSlot s k :=
  if_neg (Bool.eq_false_iff.mp h)

theorem afterSlot_three (s : State) : afterSlot s .three = { s with ph := 13#4, dl := s.T + 50000 } := by
  rw [afterSlot, fixed_val]

/-- The operation of a service slot runs the slot. -/
theorem exec_slotOp (hlive : s.held = false) (k : MelodyNo) : exec (slotOp k) s = .next (serviceSlot s k) := by
  cases k <;> exact whenLive_live hlive _

/-! ### The end of a melody -/

/-- The end of a melody with the flag written out: kept with MELREQ_CLEAR = START, cleared with END (R185). -/
theorem endMelody_flag (s : State) (k : MelodyNo) :
    endMelody s k = afterSlot
      { setMelreq (emit s (.melEnd k)) k (melreq s k && decide (s.cfg.melreqClear = .start)) with
        mel := 0#2, ni := 0#8, ms := 0#3 } k := by
  rw [endMelody]
  cases s.cfg.melreqClear with
  | start =>
    have hsame : setMelreq (emit s (.melEnd k)) k (melreq s k && true) = emit s (.melEnd k) :=
      setMelreq_self (by rw [Bool.and_true]; cases k <;> rfl)
    exact congrArg (fun u : State => afterSlot { u with mel := 0#2, ni := 0#8, ms := 0#3 } k) hsame.symm
  | atEnd => rw [show decide (MelreqClear.atEnd = .start) = false from rfl, Bool.and_false]

theorem endMelody_ms (s : State) (k : MelodyNo) : (endMelody s k).ms = 0#3 := by
  rw [endMelody_flag, afterSlot_ms]

theorem endMelody_mel (s : State) (k : MelodyNo) : (endMelody s k).mel = 0#2 := by
  rw [endMelody_flag, afterSlot_mel]

theorem endMelody_buzz (s : State) (k : MelodyNo) : (endMelody s k).buzz = s.buzz := by
  simp [endMelody_flag]

theorem endMelody_out (s : State) (k : MelodyNo) : (endMelody s k).out = s.out ++ [⟨s.T, .melEnd k⟩] := by
  simp [endMelody_flag, emit]

/-! ### The fetch -/

theorem exec_mFetch_live (hlive : s.held = false) : exec .mFetch s = fetchNote s := whenLive_live hlive _

theorem fetchNote_at_end {k : MelodyNo} (hk : melodyOfCode s.mel = some k) (hni : s.ni.toNat = melodyLen s.cfg k) :
    fetchNote s = .next (endMelody s k) := by
  simp only [fetchNote, hk, if_pos hni]

theorem lt_melodyLen_of_noteRead {c : Config} {k : MelodyNo} {i : Nat} {w : Word} (h : noteRead c k i = some w) :
    i < melodyLen c k :=
  (List.getElem?_eq_some_iff.mp h).1

theorem fetchNote_at_entry {k : MelodyNo} {w : Word} (hk : melodyOfCode s.mel = some k)
    (hw : noteRead s.cfg k s.ni.toNat = some w) : fetchNote s = .next (enterNote s w) := by
  simp only [fetchNote, hk, if_neg (Nat.ne_of_lt (lt_melodyLen_of_noteRead hw)), hw]

theorem buzzEvents_false (s : State) : buzzEvents s false = if s.buzz then [⟨s.T, .buzz false⟩] else [] := by
  cases hb : s.buzz <;> simp [buzzEvents, hb]

theorem buzzEvents_true (s : State) : buzzEvents s true = if s.buzz then [] else [⟨s.T, .buzz true⟩] := by
  cases hb : s.buzz <;> simp [buzzEvents, hb]

variable {w : Word}

/-- A rest (R183, R184). -/
theorem enterNote_of_rest (hrest : w.toNat / 65536 = 0) :
    enterNote s w = { setBuzz s false with dl := s.T + 1000 * (w.toNat % 65536), ms := 4#3 } := by
  rw [enterNote, if_pos ((noteFreq_eq_rest_iff s.cfg w).mpr hrest), noteDur_toNat]

/-- A tone with no cycle (R187). -/
theorem enterNote_of_short (htone : w.toNat / 65536 ≠ 0) (hshort : w.toNat / 65536 * (w.toNat % 65536) / 1000 = 0) :
    enterNote s w =
      { s with cyc := 0#32, half := BitVec.ofNat 19 (500000 / (w.toNat / 65536)), dl := s.T + 20000, ms := 5#3 } := by
  rw [enterNote, if_neg (mt (noteFreq_eq_rest_iff s.cfg w).mp htone), noteCycles_eq, noteHalf_eq, if_pos hshort, fixed_val]

/-- A tone (R183, R186). -/
theorem enterNote_of_tone (htone : w.toNat / 65536 ≠ 0) (hlong : w.toNat / 65536 * (w.toNat % 65536) / 1000 ≠ 0) :
    enterNote s w =
      { setBuzz s true with
        cyc := BitVec.ofNat 32 (w.toNat / 65536 * (w.toNat % 65536) / 1000),
        half := BitVec.ofNat 19 (500000 / (w.toNat / 65536)),
        dl := s.T + 500000 / (w.toNat / 65536), ms := 2#3 } := by
  rw [enterNote, if_neg (mt (noteFreq_eq_rest_iff s.cfg w).mp htone), noteCycles_eq, noteHalf_eq, if_neg hlong]

/-- An entry is left at one of the waits of a rest, a gap or a high half. -/
theorem enterNote_ms (s : State) (w : Word) :
    (enterNote s w).ms = 4#3 ∨ (enterNote s w).ms = 5#3 ∨ (enterNote s w).ms = 2#3 := by
  rw [enterNote]
  split
  · exact .inl rfl
  · split
    · exact .inr (.inl rfl)
    · exact .inr (.inr rfl)

theorem enterNote_ph (s : State) (w : Word) : (enterNote s w).ph = s.ph := by
  rw [enterNote]
  split
  · rfl
  · split <;> rfl

/-- The half period of any frequency fits its 19 bits (R186). -/
theorem half_toNat (f : Nat) : (BitVec.ofNat 19 (500000 / f)).toNat = 500000 / f := by
  have hle : 500000 / f ≤ 500000 := Nat.div_le_self _ _
  rw [BitVec.toNat_ofNat, Nat.mod_eq_of_lt (by omega)]

/-- The number of cycles of any note word fits its 32 bits (R186). -/
theorem cycles_toNat (w : Word) :
    (BitVec.ofNat 32 (w.toNat / 65536 * (w.toNat % 65536) / 1000)).toNat = w.toNat / 65536 * (w.toNat % 65536) / 1000 := by
  have hlt := toneCycles_lt (Nat.le_of_lt_succ (noteFreq w).isLt) (Nat.le_of_lt_succ (noteDur w).isLt)
  rw [noteCycles_eq] at hlt
  rw [BitVec.toNat_ofNat, Nat.mod_eq_of_lt hlt]

/-! ### The waits at their deadline -/

theorem exec_phSleep_due (hlive : s.held = false) (hdue : s.dl ≤ s.T) : exec .phSleep s = .next { s with ph := 1#4 } :=
  (whenLive_live hlive _).trans (whenDue_due hdue _)

theorem exec_mHigh_due (hlive : s.held = false) (hdue : s.dl ≤ s.T) : exec .mHigh s = .next (highEnd s) :=
  (whenLive_live hlive _).trans (whenDue_due hdue _)

theorem exec_mRest_due (hlive : s.held = false) (hdue : s.dl ≤ s.T) : exec .mRest s = .next (restEnd s) :=
  (whenLive_live hlive _).trans (whenDue_due hdue _)

theorem restEnd_eq (s : State) : restEnd s = { s with dl := s.T + 20000, ms := 5#3 } := by rw [restEnd, fixed_val]

/-- The end of the last cycle's low half (R189). -/
theorem lowEnd_of_last (h : s.cyc.toNat = 1) : lowEnd s = { s with cyc := 0#32, dl := s.T + 20000, ms := 5#3 } := by
  have hcyc : s.cyc = 1#32 := BitVec.eq_of_toNat_eq h
  rw [lowEnd, hcyc, if_neg (by decide), if_pos rfl, fixed_val]

/-- The end of a low half with a cycle still to come (R189). -/
theorem lowEnd_of_more (h : 2 ≤ s.cyc.toNat) :
    lowEnd s = { setBuzz s true with cyc := s.cyc - 1#32, dl := s.T + s.half.toNat, ms := 2#3 } := by
  have h0 : s.cyc ≠ 0#32 := fun hc => by rw [hc] at h; exact absurd h (by decide)
  have h1 : s.cyc ≠ 1#32 := fun hc => by rw [hc] at h; exact absurd h (by decide)
  rw [lowEnd, if_neg h0, if_neg h1]

/-- The end of a gap: `ni` counts on below 255 (R192). -/
theorem gapEnd_of_lt (h : s.ni.toNat < 255) : gapEnd s = { s with ni := s.ni + 1#8, ms := 1#3 } :=
  if_neg fun hni => by rw [hni] at h; exact absurd h (by decide)

theorem lowEnd_ms (s : State) : (lowEnd s).ms = 5#3 ∨ (lowEnd s).ms = 2#3 := by
  rcases lowEnd_cases s with ⟨_, h⟩ | ⟨_, _, h⟩ | ⟨_, h⟩ <;> rw [h]
  · exact .inl rfl
  · exact .inr rfl
  · exact .inr rfl

theorem gapEnd_ms (s : State) : (gapEnd s).ms = 1#3 := by
  rcases gapEnd_cases s with ⟨_, h⟩ | ⟨_, h⟩ <;> rw [h]

theorem nextEntry_toNat {n : BitVec 8} (h : n.toNat < 255) : (n + 1#8).toNat = n.toNat + 1 := by bv_omega

theorem cyclesLeft_toNat {c : BitVec 32} (h : 2 ≤ c.toNat) : (c - 1#32).toNat = c.toNat - 1 := by bv_omega

/-! ### Enabling in PH_PLAY -/

/-- R205's rows of PH_PLAY: the fetch always, a wait at its deadline. -/
theorem mainEnabled_play_iff (hph : s.ph = 12#4) :
    mainEnabled s = true ↔ s.held = false ∧ (s.ms = 1#3 ∨ ((2 ≤ s.ms.toNat ∧ s.ms.toNat ≤ 5) ∧ s.dl ≤ s.T)) := by
  simp [mainEnabled, alwaysEnabled, waitingPair, deadlineMet, hph]

/-- In PH_PLAY the invariant leaves `ms` one of the five codes that select a step (R181). -/
theorem BlockInv.playCode (h : BlockInv s) (hph : s.ph = 12#4) : s.ms = 1#3 ∨ (2 ≤ s.ms.toNat ∧ s.ms.toNat ≤ 5) :=
  stepCode_cases (fun hms => h.note.playIdle.mp hms hph) h.regs.msLegal

end

/-- Settles O33: each slot by its flag (`serviceSlot_of_set`, `serviceSlot_of_clear`). -/
theorem serviceSlotStartsTheMelodyOrPassesOn : Obligations.ServiceSlotStartsTheMelodyOrPassesOn := fun s hlive => by
  have hset : ∀ k, melreq s k = true →
      exec (slotOp k) s = .next (startMelody (setMelreq s k (decide (s.cfg.melreqClear = .atEnd))) k) :=
    fun k h => (exec_slotOp hlive k).trans (congrArg _ (serviceSlot_of_set h))
  have hclear : ∀ k, melreq s k = false → exec (slotOp k) s = .next (afterSlot s k) :=
    fun k h => (exec_slotOp hlive k).trans (congrArg _ (serviceSlot_of_clear h))
  exact ⟨hset .one, hset .two, hset .three, hclear .one, hclear .two,
    fun h => (hclear .three h).trans (congrArg _ (afterSlot_three s))⟩

/-- Settles O38: each wait at its deadline, M_LOW by the cycles that are left. -/
theorem waitingStepsFireAtTheDeadline : Obligations.WaitingStepsFireAtTheDeadline := fun s hlive hdue => by
  refine ⟨exec_phSleep_due hlive hdue, ?high, fun hcyc => ?lowLast, fun hcyc => ⟨_, cyclesLeft_toNat hcyc, ?lowMore⟩, ?rest,
    fun hni => ⟨_, nextEntry_toNat hni, ?gap⟩⟩
  case high =>
    rw [exec_mHigh_due hlive hdue, ← buzzEvents_false]
    rfl
  case lowLast => rw [exec_mLow_due hlive hdue, lowEnd_of_last hcyc]
  case lowMore =>
    rw [exec_mLow_due hlive hdue, lowEnd_of_more hcyc, ← buzzEvents_true]
    rfl
  case rest => rw [exec_mRest_due hlive hdue, restEnd_eq]
  case gap => rw [exec_mGap_due hlive hdue, gapEnd_of_lt hni]

/-- Settles O37: an entry is a rest, a tone with no cycle or a tone; at LEN the melody ends with its flag as MELREQ_CLEAR says. -/
theorem fetchEntersTheNextEntryOrEndsTheMelody : Obligations.FetchEntersTheNextEntryOrEndsTheMelody := by
  refine ⟨fun s k w hlive hk _ hw f d hf hd => ?entry, fun s hlive => ?atEnd⟩
  case entry =>
    subst hf hd
    have hfetch : exec .mFetch s = .next (enterNote s w) := (exec_mFetch_live hlive).trans (fetchNote_at_entry hk hw)
    refine ⟨fun hrest => ?rest, fun htone hshort => ⟨_, half_toNat _, ?short⟩,
      fun htone hlong => ⟨_, _, cycles_toNat w, half_toNat _, ?tone⟩⟩
    case rest =>
      rw [hfetch, enterNote_of_rest hrest, ← buzzEvents_false]
      rfl
    case short => rw [hfetch, enterNote_of_short (by omega) (Nat.div_eq_of_lt hshort)]
    case tone =>
      rw [hfetch, enterNote_of_tone (by omega) (Nat.div_pos hlong (by decide)).ne', ← buzzEvents_true]
      rfl
  case atEnd =>
    have hend : ∀ k, s.mel = melodyCode k → s.ni.toNat = melodyLen s.cfg k → exec .mFetch s = .next (afterSlot
        { setMelreq (emit s (.melEnd k)) k (melreq s k && decide (s.cfg.melreqClear = .start)) with
          mel := 0#2, ni := 0#8, ms := 0#3 } k) := fun k hk hni => by
      rw [exec_mFetch_live hlive, fetchNote_at_end (melodyOfCode_eq_some.mpr hk) hni, endMelody_flag]
    exact ⟨hend .one, hend .two, fun hk hni => (hend .three hk hni).trans (congrArg _ (afterSlot_three _))⟩

/-- Settles O36: the fetch answers because `ni` is not past LEN, a wait because its deadline is met; none stays at its code. -/
theorem playCompletesUnderTheInvariant : Obligations.PlayCompletesUnderTheInvariant := fun s hinv hen hph => by
  suffices h : ∃ i t, decode (.mstate s.ms) = .ok i ∧ i ≠ .mIdle ∧ exec i s = .next t ∧ t.ms ≠ s.ms by
    obtain ⟨i, t, hdec, hi, hexec, hms⟩ := h
    exact ⟨i, t, hdec, hexec, (exec_phPlay_of_decode hdec hi).trans hexec, hms⟩
  obtain ⟨hlive, hms | ⟨⟨hlo, hhi⟩, hdue⟩⟩ := (mainEnabled_play_iff hph).mp hen
  · obtain ⟨_, k, hk⟩ := hinv.note.playing (by rw [hms]; decide)
    have hsome := melodyOfCode_eq_some.mpr hk
    obtain ⟨t, ht⟩ := fetchNote_completes hsome (hinv.note.niRange k hsome)
    refine ⟨.mFetch, t, by rw [hms]; rfl, by decide, (exec_mFetch_live hlive).trans ht, ?_⟩
    obtain ⟨j, _, ⟨_, rfl⟩ | ⟨_, w, _, rfl⟩⟩ := fetchNote_next ht
    · rw [endMelody_ms, hms]; decide
    · rcases enterNote_ms s w with h | h | h <;> rw [h, hms] <;> decide
  · rcases waitCode_cases hlo hhi with hms | hms | hms | hms
    · exact ⟨.mHigh, _, by rw [hms]; rfl, by decide, exec_mHigh_due hlive hdue, by rw [highEnd_ms, hms]; decide⟩
    · refine ⟨.mLow, _, by rw [hms]; rfl, by decide, exec_mLow_due hlive hdue, ?_⟩
      rcases lowEnd_ms s with h | h <;> rw [h, hms] <;> decide
    · exact ⟨.mRest, _, by rw [hms]; rfl, by decide, exec_mRest_due hlive hdue, by rw [restEnd_ms, hms]; decide⟩
    · exact ⟨.mGap, _, by rw [hms]; rfl, by decide, exec_mGap_due hlive hdue, by rw [gapEnd_ms, hms]; decide⟩

/-- Settles O60: the waits do not write `ph` (`exec_framed`), nor does entering an entry; the fetch at LEN is the end of the melody. -/
theorem melodyIsNotCutShort : Obligations.MelodyIsNotCutShort := fun s t hinv hph _ ht => by
  obtain ⟨i, hdec, hexec⟩ := mainStep_next ht
  have hi : i = .phPlay := by rw [hph] at hdec; exact (Except.ok.inj hdec).symm
  subst hi
  have hwait : ∀ j, decode (.mstate s.ms) = .ok j → j ∈ [.mHigh, .mLow, .mRest, .mGap] → t.ph = 12#4 := fun j hj hmem => by
    rw [exec_phPlay_of_decode (s := countLead s) hj (by rintro rfl; simp at hmem)] at hexec
    have hfr := exec_framed j _ t hexec
    simp only [List.mem_cons, List.not_mem_nil, or_false] at hmem
    rcases hmem with rfl | rfl | rfl | rfl <;> exact (congrArg State.ph hfr).trans hph
  rcases hinv.playCode hph with hms | ⟨hlo, hhi⟩
  · have hdecode : decode (.mstate (countLead s).ms) = .ok .mFetch := by rw [countLead_ms, hms]; rfl
    rw [exec_phPlay_of_decode hdecode (by decide)] at hexec
    obtain ⟨k, hk, ⟨hni, rfl⟩ | ⟨_, w, _, rfl⟩⟩ := fetchNote_next (whenLive_next hexec).2
    · exact .inr ⟨k, hk, hms, hni, endMelody_out (countLead s) k⟩
    · exact .inl ((enterNote_ph (countLead s) w).trans hph)
  · refine .inl ?_
    rcases waitCode_cases hlo hhi with hms | hms | hms | hms
    · exact hwait .mHigh (by rw [hms]; rfl) (by simp)
    · exact hwait .mLow (by rw [hms]; rfl) (by simp)
    · exact hwait .mRest (by rw [hms]; rfl) (by simp)
    · exact hwait .mGap (by rw [hms]; rfl) (by simp)

end Sys2Proof.Machine
end

section
/-! SUPPORT. The time of a melody (45_melody_sequencer.md R185, R191, R193): a wait of PH_PLAY takes its time, the cycles of a tone follow by
induction on `cyc`, an entry is the fetch, its waits and the gap, and a melody follows by induction on the entries left. -/

namespace Sys2Proof.Machine

/-! ### Runs -/

theorem coreRun_succ (M : Host.Core) {s u : M.State} (h : M.step s = .next u) (n : Nat) : M.run (n + 1) s = M.run n u := by
  rw [Host.Core.run, h]

theorem coreRun_add (M : Host.Core) {m n : Nat} {s u t : M.State} (hm : M.run m s = .next u) (hn : M.run n u = .next t) :
    M.run (m + n) s = .next t := by
  induction m generalizing s with
  | zero =>
    cases hm
    rwa [Nat.zero_add]
  | succ m ih =>
    cases hstep : M.step s with
    | next v =>
      rw [coreRun_succ M hstep] at hm
      rw [Nat.succ_add, coreRun_succ M hstep]
      exact ih hm
    | fault r =>
      rw [Host.Core.run, hstep] at hm
      cases hm
    | refused r =>
      rw [Host.Core.run, hstep] at hm
      cases hm

theorem runSteps_one {s u : State} (h : step s = .next u) : runSteps 1 s = .next u := coreRun_succ Sys2Proof.core h 0

theorem runSteps_add {m n : Nat} {s u t : State} (hm : runSteps m s = .next u) (hn : runSteps n u = .next t) :
    runSteps (m + n) s = .next t := coreRun_add Sys2Proof.core hm hn

/-! ### Playing undisturbed -/

/-- Live in PH_PLAY with no stimulus pending. -/
structure Playing (s : State) : Prop where
  live : s.held = false
  undisturbed : s.trace = []
  phase : s.ph = 12#4

/-- `n` microseconds of an advance have passed. -/
def elapse (n : Nat) (s : State) : State := { s with T := s.T + n, adv := s.adv - n }

/-- A run leads from `s` to `t`, `n` microseconds later, in which only the note sequencer wrote: all other registers, the readings, the
cursor, the buffer, the colour cycle and the LEDs are as before (R193). -/
structure PlaysFor (n : Nat) (s t : State) : Prop where
  runs : ∃ k, runSteps k s = .next t
  frame : t = { elapse n s with
    dl := t.dl, ni := t.ni, ms := t.ms, cyc := t.cyc, half := t.half, buzz := t.buzz, out := t.out }

section

variable {s t u : State} {m n : Nat}

theorem PlaysFor.cfg (h : PlaysFor n s t) : t.cfg = s.cfg := (congrArg State.cfg h.frame).trans rfl

theorem PlaysFor.clock (h : PlaysFor n s t) : t.T = s.T + n := congrArg State.T h.frame

theorem PlaysFor.advLeft (h : PlaysFor n s t) : t.adv = s.adv - n := congrArg State.adv h.frame

theorem PlaysFor.mel (h : PlaysFor n s t) : t.mel = s.mel := (congrArg State.mel h.frame).trans rfl

theorem PlaysFor.playing (h : PlaysFor n s t) (hs : Playing s) : Playing t where
  live := (congrArg State.held h.frame).trans hs.live
  undisturbed := (congrArg State.trace h.frame).trans hs.undisturbed
  phase := (congrArg State.ph h.frame).trans hs.phase

theorem elapse_add (m n : Nat) (s : State) : elapse n (elapse m s) = elapse (m + n) s := by
  simp only [elapse, Nat.add_assoc, Nat.sub_sub]

theorem PlaysFor.refl (s : State) : PlaysFor 0 s s := ⟨⟨0, rfl⟩, rfl⟩

theorem PlaysFor.trans (hsu : PlaysFor m s u) (hut : PlaysFor n u t) : PlaysFor (m + n) s t where
  runs := by
    obtain ⟨j, hj⟩ := hsu.runs
    obtain ⟨k, hk⟩ := hut.runs
    exact ⟨j + k, runSteps_add hj hk⟩
  frame := by
    have hframe := hut.frame
    rw [hsu.frame] at hframe
    rw [← elapse_add]
    exact hframe

/-! ### One wait -/

/-- Before the deadline of a wait the rest of the advance passes up to it, in one step or none. -/
theorem wait_passes (hs : Playing s) (hwait : waitingPair s = true) (hnever : alwaysEnabled s = false) (hdl : s.dl = s.T + n)
    (hadv : n ≤ s.adv) : ∃ k, runSteps k s = .next (elapse n s) := by
  cases n with
  | zero => exact ⟨0, rfl⟩
  | succ n =>
    have hoff : mainEnabled s = false := by
      simp [mainEnabled, hnever, deadlineMet, hdl]
    have hrun : freeRun s = n + 1 := by
      rw [freeRun, if_pos hwait, hdl]
      omega
    refine ⟨1, runSteps_one ?_⟩
    rw [step_time hs.undisturbed hoff (by omega), passTime, hoff, hrun]
    rfl

/-- An enabled step of PH_PLAY is the operation whose code is in `ms`. -/
theorem step_playing {i : Instr} (hs : Playing s) (hen : mainEnabled s = true) (hdec : decode (.mstate s.ms) = .ok i)
    (hi : i ≠ .mIdle) : step s = exec i s := by
  have hph : decode (.phase s.ph) = .ok .phPlay := by rw [hs.phase]; rfl
  rw [step_main hs.undisturbed hen, mainStep_eq hs.undisturbed hph, exec_phPlay_of_decode hdec hi]

/-- A wait of `n` microseconds, then the step at its deadline. -/
theorem wait_then_fire {i : Instr} {c : BitVec 3} (hs : Playing s) (hms : s.ms = c) (hc : 2 ≤ c.toNat ∧ c.toNat ≤ 5)
    (hdec : decode (.mstate c) = .ok i) (hdl : s.dl = s.T + n) (hadv : n ≤ s.adv) (hfire : exec i (elapse n s) = .next t) :
    ∃ k, runSteps k s = .next t := by
  subst hms
  have hpair : waitingPair s = true := by simp [waitingPair, hs.phase, hc.1, hc.2]
  have hnever : alwaysEnabled s = false := by
    have hne : s.ms ≠ 1#3 := fun h => by rw [h] at hc; exact absurd hc.1 (by decide)
    simp [alwaysEnabled, hs.phase, hne]
  have hi : i ≠ .mIdle := by
    rintro rfl
    have h0 := encode_of_decode hdec
    rw [Code.mstate.inj h0.symm] at hc
    exact absurd hc.1 (by decide)
  have hen : mainEnabled (elapse n s) = true :=
    (mainEnabled_play_iff (s := elapse n s) hs.phase).mpr ⟨hs.live, .inr ⟨hc, Nat.le_of_eq hdl⟩⟩
  have hplay : Playing (elapse n s) := ⟨hs.live, hs.undisturbed, hs.phase⟩
  obtain ⟨k, hk⟩ := wait_passes hs hpair hnever hdl hadv
  exact ⟨k + 1, runSteps_add hk (runSteps_one ((step_playing hplay hen hdec hi).trans hfire))⟩

/-! ### The waits of an entry -/

/-- M_HIGH with `n` cycles left, its deadline a half period ahead. -/
structure AtHigh (n : Nat) (s : State) : Prop extends Playing s where
  code : s.ms = 2#3
  cycles : s.cyc.toNat = n
  deadline : s.dl = s.T + s.half.toNat

/-- M_GAP, silent, its deadline T_GAP ahead. -/
structure AtGap (s : State) : Prop extends Playing s where
  code : s.ms = 5#3
  silent : s.buzz = false
  deadline : s.dl = s.T + 20000

/-- M_FETCH of melody `k`, silent, `ni` not past its end. -/
structure AtFetch (k : MelodyNo) (s : State) : Prop extends Playing s where
  code : s.ms = 1#3
  silent : s.buzz = false
  melody : melodyOfCode s.mel = some k
  inside : s.ni.toNat ≤ melodyLen s.cfg k

/-- The end of the low half that follows the high half of `s`. -/
def lowHalfOver (s : State) : State := elapse s.half.toNat (highEnd (elapse s.half.toNat s))

/-- One cycle: the high half, then the low half (R188, R189). -/
theorem AtHigh.cycle (h : AtHigh n s) (hadv : s.half.toNat + s.half.toNat ≤ s.adv) :
    ∃ k, runSteps k s = .next (lowEnd (lowHalfOver s)) := by
  have hhigh : exec .mHigh (elapse s.half.toNat s) = .next (highEnd (elapse s.half.toNat s)) :=
    exec_mHigh_due h.live (Nat.le_of_eq h.deadline)
  obtain ⟨j, hj⟩ := wait_then_fire h.toPlaying h.code (by decide) rfl h.deadline (by omega) hhigh
  have hplay : Playing (highEnd (elapse s.half.toNat s)) := ⟨h.live, h.undisturbed, h.phase⟩
  have hleft : s.half.toNat ≤ (highEnd (elapse s.half.toNat s)).adv := Nat.le_sub_of_add_le hadv
  have hlow : exec .mLow (lowHalfOver s) = .next (lowEnd (lowHalfOver s)) := exec_mLow_due h.live (Nat.le_refl _)
  obtain ⟨k, hk⟩ := wait_then_fire hplay (highEnd_ms _) (by decide) rfl (highEnd_dl _) hleft hlow
  exact ⟨j + k, runSteps_add hj hk⟩

/-- The last cycle of a tone ends in the gap. -/
theorem AtHigh.last (h : AtHigh 1 s) (hadv : 2 * s.half.toNat ≤ s.adv) :
    ∃ t, PlaysFor (2 * s.half.toNat) s t ∧ AtGap t ∧ t.ni = s.ni := by
  rw [Nat.two_mul] at hadv ⊢
  have hrun := h.cycle hadv
  rw [lowEnd_of_last (s := lowHalfOver s) h.cycles] at hrun
  refine ⟨_, ⟨hrun, ?_⟩, ⟨⟨h.live, h.undisturbed, h.phase⟩, rfl, rfl, rfl⟩, rfl⟩
  rw [← elapse_add]
  rfl

/-- A cycle with another to come ends at its M_HIGH. -/
theorem AtHigh.next (h : AtHigh (n + 2) s) (hadv : 2 * s.half.toNat ≤ s.adv) :
    ∃ t, PlaysFor (2 * s.half.toNat) s t ∧ AtHigh (n + 1) t ∧ t.half = s.half ∧ t.ni = s.ni := by
  rw [Nat.two_mul] at hadv ⊢
  have hmore : 2 ≤ s.cyc.toNat := by rw [h.cycles]; omega
  have hleft : (s.cyc - 1#32).toNat = n + 1 := by rw [cyclesLeft_toNat hmore, h.cycles]; rfl
  have hrun := h.cycle hadv
  rw [lowEnd_of_more (s := lowHalfOver s) hmore] at hrun
  refine ⟨_, ⟨hrun, ?_⟩, ⟨⟨h.live, h.undisturbed, h.phase⟩, rfl, hleft, rfl⟩, rfl, rfl⟩
  rw [← elapse_add]
  rfl

/-- The cycles of a tone take `2 * half` each (R186, R191), by induction on how many are left. -/
theorem AtHigh.tone (h : AtHigh (n + 1) s) (hadv : 2 * s.half.toNat * (n + 1) ≤ s.adv) :
    ∃ t, PlaysFor (2 * s.half.toNat * (n + 1)) s t ∧ AtGap t ∧ t.ni = s.ni := by
  induction n generalizing s with
  | zero =>
    rw [Nat.zero_add, Nat.mul_one] at hadv ⊢
    exact h.last hadv
  | succ n ih =>
    rw [Nat.mul_succ, Nat.add_comm] at hadv ⊢
    obtain ⟨u, hu, hhigh, hhalf, hni⟩ := h.next (Nat.le_trans (Nat.le_add_right _ _) hadv)
    have hrest : 2 * u.half.toNat * (n + 1) ≤ u.adv := by
      rw [hu.advLeft, hhalf]
      exact Nat.le_sub_of_add_le' hadv
    obtain ⟨t, ht, hgap, hni'⟩ := ih hhigh hrest
    rw [hhalf] at ht
    exact ⟨t, hu.trans ht, hgap, hni'.trans hni⟩

/-- The gap takes 20 000 us and leads to the fetch of the next entry (R192). -/
theorem AtGap.passes (h : AtGap s) (hadv : 20000 ≤ s.adv) (hni : s.ni.toNat < 255) :
    ∃ t, PlaysFor 20000 s t ∧ t.ms = 1#3 ∧ t.buzz = false ∧ t.ni.toNat = s.ni.toNat + 1 := by
  have hgap : exec .mGap (elapse 20000 s) = .next (gapEnd (elapse 20000 s)) :=
    exec_mGap_due h.live (Nat.le_of_eq h.deadline)
  have hrun := wait_then_fire h.toPlaying h.code (by decide) rfl h.deadline hadv hgap
  rw [gapEnd_of_lt (s := elapse 20000 s) hni] at hrun
  exact ⟨_, ⟨hrun, rfl⟩, rfl, h.silent, nextEntry_toNat hni⟩

/-! ### One entry -/

variable {k : MelodyNo} {w : Word}

/-- The stated time of an entry, in numbers (R191). -/
theorem entryTime_eq (c : Config) (w : Word) : entryTime c w =
    if w.toNat / 65536 = 0 then 1000 * (w.toNat % 65536) + 20000
    else 2 * (500000 / (w.toNat / 65536)) * (w.toNat / 65536 * (w.toNat % 65536) / 1000) + 20000 := by
  rw [entryTime, noteCycles_eq, noteHalf_eq, noteDur_toNat, fixed_val c.tGap]
  simp only [noteFreq_eq_rest_iff]

/-- The fetch takes no time. -/
theorem AtFetch.fires (h : AtFetch k s) (ht : fetchNote s = .next t) : ∃ j, runSteps j s = .next t := by
  have hen : mainEnabled s = true := (mainEnabled_play_iff h.phase).mpr ⟨h.live, .inl h.code⟩
  have hdec : decode (.mstate s.ms) = .ok .mFetch := by rw [h.code]; rfl
  exact ⟨1, runSteps_one ((step_playing h.toPlaying hen hdec (by decide)).trans ((exec_mFetch_live h.live).trans ht))⟩

/-- A rest, up to its gap (R190). -/
theorem AtFetch.rest (h : AtFetch k s) (hw : noteRead s.cfg k s.ni.toNat = some w) (hrest : w.toNat / 65536 = 0)
    (hadv : 1000 * (w.toNat % 65536) ≤ s.adv) :
    ∃ t, PlaysFor (1000 * (w.toNat % 65536)) s t ∧ AtGap t ∧ t.ni = s.ni := by
  obtain ⟨i, hi⟩ := h.fires (fetchNote_at_entry h.melody hw)
  rw [enterNote_of_rest hrest] at hi
  have hplay : Playing { setBuzz s false with dl := s.T + 1000 * (w.toNat % 65536), ms := 4#3 } :=
    ⟨h.live, h.undisturbed, h.phase⟩
  obtain ⟨j, hj⟩ := wait_then_fire (c := 4#3) hplay rfl (by decide) rfl rfl hadv (exec_mRest_due h.live (Nat.le_refl _))
  rw [restEnd_eq] at hj
  exact ⟨_, ⟨⟨i + j, runSteps_add hi hj⟩, rfl⟩, ⟨⟨h.live, h.undisturbed, h.phase⟩, rfl, rfl, rfl⟩, rfl⟩

/-- A tone with no cycle is at its gap at once, the buzzer not driven (R187). -/
theorem AtFetch.short (h : AtFetch k s) (hw : noteRead s.cfg k s.ni.toNat = some w) (htone : w.toNat / 65536 ≠ 0)
    (hshort : w.toNat / 65536 * (w.toNat % 65536) / 1000 = 0) : ∃ t, PlaysFor 0 s t ∧ AtGap t ∧ t.ni = s.ni := by
  have hrun := h.fires (fetchNote_at_entry h.melody hw)
  rw [enterNote_of_short htone hshort] at hrun
  exact ⟨_, ⟨hrun, rfl⟩, ⟨⟨h.live, h.undisturbed, h.phase⟩, rfl, h.silent, rfl⟩, rfl⟩

/-- A tone with a cycle is at once in its first high half (R186). -/
theorem AtFetch.starts_tone (h : AtFetch k s) (hw : noteRead s.cfg k s.ni.toNat = some w) (htone : w.toNat / 65536 ≠ 0)
    (hlong : w.toNat / 65536 * (w.toNat % 65536) / 1000 ≠ 0) :
    ∃ t, PlaysFor 0 s t ∧ AtHigh (w.toNat / 65536 * (w.toNat % 65536) / 1000) t ∧
      t.half.toNat = 500000 / (w.toNat / 65536) ∧ t.ni = s.ni := by
  have hrun := h.fires (fetchNote_at_entry h.melody hw)
  rw [enterNote_of_tone htone hlong] at hrun
  have hhalf := half_toNat (w.toNat / 65536)
  exact ⟨_, ⟨hrun, rfl⟩, ⟨⟨h.live, h.undisturbed, h.phase⟩, rfl, cycles_toNat w, congrArg (s.T + ·) hhalf.symm⟩, hhalf, rfl⟩

/-- A tone, up to its gap (R186). -/
theorem AtFetch.tone (h : AtFetch k s) (hw : noteRead s.cfg k s.ni.toNat = some w) (htone : w.toNat / 65536 ≠ 0)
    (hlong : w.toNat / 65536 * (w.toNat % 65536) / 1000 ≠ 0)
    (hadv : 2 * (500000 / (w.toNat / 65536)) * (w.toNat / 65536 * (w.toNat % 65536) / 1000) ≤ s.adv) :
    ∃ t, PlaysFor (2 * (500000 / (w.toNat / 65536)) * (w.toNat / 65536 * (w.toNat % 65536) / 1000)) s t ∧ AtGap t ∧
      t.ni = s.ni := by
  obtain ⟨u, hu, hhigh, hhalf, hni⟩ := h.starts_tone hw htone hlong
  obtain ⟨n, hn⟩ := Nat.exists_eq_add_one_of_ne_zero hlong
  rw [hn] at hhigh hadv ⊢
  rw [← hhalf] at hadv ⊢
  obtain ⟨t, ht, hgap, hni'⟩ := hhigh.tone (by rwa [hu.advLeft])
  have hst := hu.trans ht
  rw [Nat.zero_add] at hst
  exact ⟨t, hst, hgap, hni'.trans hni⟩

/-- Any entry, from its fetch to its gap: what is left of its time is T_GAP. -/
theorem AtFetch.reaches_gap (h : AtFetch k s) (hw : noteRead s.cfg k s.ni.toNat = some w) (hadv : entryTime s.cfg w ≤ s.adv) :
    ∃ n t, entryTime s.cfg w = n + 20000 ∧ PlaysFor n s t ∧ AtGap t ∧ t.ni = s.ni := by
  rw [entryTime_eq] at hadv ⊢
  split at hadv
  · rename_i hrest
    rw [if_pos hrest]
    obtain ⟨t, ht⟩ := h.rest hw hrest (by omega)
    exact ⟨_, t, rfl, ht⟩
  · rename_i htone
    rw [if_neg htone]
    by_cases hshort : w.toNat / 65536 * (w.toNat % 65536) / 1000 = 0
    · obtain ⟨t, ht⟩ := h.short hw htone hshort
      exact ⟨0, t, by rw [hshort]; rfl, ht⟩
    · obtain ⟨t, ht⟩ := h.tone hw htone hshort (by omega)
      exact ⟨_, t, rfl, ht⟩

/-- One entry takes its stated time and leads to the fetch of the next (R191). -/
theorem AtFetch.entry (h : AtFetch k s) (hw : noteRead s.cfg k s.ni.toNat = some w) (hadv : entryTime s.cfg w ≤ s.adv) :
    ∃ t, PlaysFor (entryTime s.cfg w) s t ∧ AtFetch k t ∧ t.ni.toNat = s.ni.toNat + 1 := by
  obtain ⟨n, u, htime, hu, hgap, hni⟩ := h.reaches_gap hw hadv
  have hlt := lt_melodyLen_of_noteRead hw
  have hlast := melodyLen_le s.cfg k
  rw [htime] at hadv ⊢
  obtain ⟨t, ht, hms, hbuzz, hnext⟩ := hgap.passes (by rw [hu.advLeft]; omega) (by rw [hni]; omega)
  have hst := hu.trans ht
  rw [hni] at hnext
  refine ⟨t, hst, ⟨hst.playing h.toPlaying, hms, hbuzz, ?_, ?_⟩, hnext⟩
  · rw [hst.mel, h.melody]
  · rw [hnext, hst.cfg]
    exact hlt

/-- The invariant at M_FETCH: the buzzer is silent and `ni` is not past the end of the melody. -/
theorem BlockInv.atFetch (h : BlockInv s) (hlive : s.held = false) (htrace : s.trace = []) (hph : s.ph = 12#4)
    (hms : s.ms = 1#3) (hk : melodyOfCode s.mel = some k) : AtFetch k s where
  live := hlive
  undisturbed := htrace
  phase := hph
  code := hms
  silent := h.note.silent hms (by decide)
  melody := hk
  inside := h.note.niRange k hk

/-! ### The whole melody -/

/-- The entries `ws` left of a melody take the sum of their times, by induction on them. -/
theorem AtFetch.entries {ws : List Word} (h : AtFetch k s) (hws : (melodyWords s.cfg k).drop s.ni.toNat = ws)
    (hadv : (ws.map (entryTime s.cfg)).sum ≤ s.adv) :
    ∃ t, PlaysFor (ws.map (entryTime s.cfg)).sum s t ∧ AtFetch k t ∧ t.ni.toNat = melodyLen t.cfg k := by
  induction ws generalizing s with
  | nil => exact ⟨s, .refl s, h, Nat.le_antisymm h.inside (List.drop_eq_nil_iff.mp hws)⟩
  | cons w ws ih =>
    have hw : noteRead s.cfg k s.ni.toNat = some w := by
      rw [noteRead, ← List.head?_drop, hws, List.head?_cons]
    rw [List.map_cons, List.sum_cons] at hadv ⊢
    obtain ⟨u, hu, hfetch, hni⟩ := h.entry hw (Nat.le_trans (Nat.le_add_right _ _) hadv)
    have hleft : (melodyWords u.cfg k).drop u.ni.toNat = ws := by
      rw [hu.cfg, hni, ← List.tail_drop, hws, List.tail_cons]
    have hrest : (ws.map (entryTime u.cfg)).sum ≤ u.adv := by
      rw [hu.cfg, hu.advLeft]
      exact Nat.le_sub_of_add_le' hadv
    obtain ⟨t, ht, hend⟩ := ih hfetch hleft hrest
    rw [hu.cfg] at ht
    exact ⟨t, hu.trans ht, hend⟩

end

/-- Settles O58: the fetch of the invariant's state (`BlockInv.atFetch`), then one entry (`AtFetch.entry`). -/
theorem entryTakesItsStatedTime : Obligations.EntryTakesItsStatedTime := by
  rintro s k w hinv hlive htrace hph hms hk _ hw _ _ time rfl rfl htime hadv
  rw [← entryTime_eq s.cfg] at htime
  subst htime
  obtain ⟨t, ht, hfetch, hni⟩ := (hinv.atFetch hlive htrace hph hms hk).entry hw hadv
  obtain ⟨n, hrun⟩ := ht.runs
  have hkept {α : Type} (f : State → α) := congrArg f ht.frame
  exact ⟨n, t, hrun, ht.clock, ht.advLeft, hfetch.phase, hfetch.code, ht.mel, hni, hfetch.silent, hkept State.rdX,
    hkept State.rdY, hkept State.curX, hkept State.curY, hkept State.mbuf, hkept State.rgbState, hkept State.rgbLast,
    hkept State.ledR, hkept State.ledG, hkept State.ledB⟩

/-- Settles O59: the entries from the first on (`AtFetch.entries`), then the fetch that finds `ni` = LEN and ends the melody. -/
theorem melodyTakesTheSumOfItsEntries : Obligations.MelodyTakesTheSumOfItsEntries := by
  rintro s k time hinv hlive htrace hph hms hni hk htime hadv
  simp only [← entryTime_eq s.cfg] at htime
  subst htime
  have hall : (melodyWords s.cfg k).drop s.ni.toNat = melodyWords s.cfg k := by rw [hni]; rfl
  obtain ⟨u, hu, hfetch, hlen⟩ := (hinv.atFetch hlive htrace hph hms hk).entries hall hadv
  obtain ⟨m, hm⟩ := hu.runs
  have hend := fetchNote_at_end hfetch.melody hlen
  obtain ⟨j, hj⟩ := hfetch.fires hend
  have hkept {α : Type} (f : State → α) := congrArg f hu.frame
  have hframe := fetchNote_framed u _ hend
  have hafter {α : Type} (f : State → α) := congrArg f hframe
  refine ⟨m + j, endMelody u k, runSteps_add hm hj, (hafter State.T).trans hu.clock, (hafter State.adv).trans hu.advLeft,
    endMelody_mel u k, endMelody_ms u k, (endMelody_buzz u k).trans hfetch.silent, ?one, ?two, ?three, ?last,
    (hafter State.mbuf).trans (hkept State.mbuf), (hafter State.rgbState).trans (hkept State.rgbState),
    (hafter State.rgbLast).trans (hkept State.rgbLast)⟩
  case one => rintro rfl; rw [endMelody_flag]; rfl
  case two => rintro rfl; rw [endMelody_flag]; rfl
  case three => rintro rfl; rw [endMelody_flag, afterSlot_three]; exact ⟨rfl, rfl⟩
  case last =>
    have hT : (endMelody u k).T = u.T := hafter State.T
    rw [endMelody_out, List.getLast?_concat, hT]

end Sys2Proof.Machine
end

section
/-! SUPPORT. What one step of the block is (46_main_sequencer.md R205 to R208): when MAIN is enabled, what is chosen, and how time passes;
with the stimuli ADV and JOY (R208, R210) and the waits before their deadline (R222). -/

namespace Sys2Proof.Machine

section

variable {s : State}

/-! ### Enabling (R205) -/

theorem alwaysEnabled_iff (s : State) :
    alwaysEnabled s = true ↔ (s.ph.toNat ≤ 11 ∧ s.ms.toNat = 0) ∨ (s.ph.toNat = 12 ∧ s.ms.toNat = 1) := by
  simp [alwaysEnabled, BitVec.toNat_eq]

theorem waitingPair_iff (s : State) : waitingPair s = true ↔
    (s.ph.toNat = 12 ∧ 2 ≤ s.ms.toNat ∧ s.ms.toNat ≤ 5) ∨ (s.ph.toNat = 13 ∧ s.ms.toNat = 0) := by
  simp [waitingPair, BitVec.toNat_eq, and_assoc]

theorem mainEnabled_iff (s : State) :
    mainEnabled s = true ↔ s.held = false ∧ (alwaysEnabled s = true ∨ (waitingPair s = true ∧ s.dl ≤ s.T)) := by
  simp [mainEnabled, deadlineMet]

/-- Where MAIN is not enabled now it is not later either, short of the deadline of a wait. -/
theorem mainEnabled_later {n : Nat} (hoff : mainEnabled s = false) (hshort : waitingPair s = true → s.T + n < s.dl) (a : Nat) :
    mainEnabled { s with T := s.T + n, adv := a } = false := by
  rw [Bool.eq_false_iff, ne_eq, mainEnabled_iff] at hoff ⊢
  rintro ⟨hlive, halways | ⟨hwait, hdue⟩⟩
  · exact hoff ⟨hlive, .inl halways⟩
  · exact absurd hdue (Nat.not_le.mpr (hshort hwait))

/-- A live wait is enabled from its deadline on. -/
theorem mainEnabled_at_deadline (hlive : s.held = false) (hwait : waitingPair s = true) {n : Nat} (hdue : s.dl ≤ s.T + n) (a : Nat) :
    mainEnabled { s with T := s.T + n, adv := a } = true :=
  (mainEnabled_iff _).mpr ⟨hlive, .inr ⟨hwait, hdue⟩⟩

/-- Settles O9: the rows of the always enabled and of the waiting pairs. -/
theorem enablingConditionsOfMain : Obligations.EnablingConditionsOfMain := fun s => by
  rw [mainEnabled_iff, alwaysEnabled_iff, waitingPair_iff]
  simp only [or_and_right, or_assoc, and_assoc]

/-! ### The choice (R206, R207; log entry 1) -/

theorem preempts_iff (s : State) : preempts s = true ↔ s.adv = 0 ∧ ∃ st rest, s.trace = st :: rest ∧ st.lead = some 0 := by
  cases htrace : s.trace <;> simp [preempts, htrace]

/-- The next stimulus runs between two MAIN steps, or where MAIN has none. -/
theorem chooseStep_stimulus {st : Stimulus} {rest : List Stimulus} (htrace : s.trace = st :: rest) (hadv : s.adv = 0)
    (hnow : st.lead = some 0 ∨ mainEnabled s = false) : chooseStep s = .stimulus := by
  rw [chooseStep]
  split
  · rfl
  · next hwaits =>
    have hoff : mainEnabled s = false := hnow.resolve_left fun hlead =>
      hwaits ((preempts_iff s).mpr ⟨hadv, st, rest, htrace, hlead⟩)
    simp [hoff, hadv, htrace]

theorem chooseStep_main_of_enabled (hen : mainEnabled s = true)
    (hwaits : ∀ st rest, s.trace = st :: rest → s.adv = 0 → st.lead ≠ some 0) : chooseStep s = .main := by
  have hnone : ¬ preempts s = true := fun h => by
    obtain ⟨hadv, st, rest, htrace, hlead⟩ := (preempts_iff s).mp h
    exact hwaits st rest htrace hadv hlead
  rw [chooseStep, if_neg hnone, if_pos hen]

theorem chooseStep_time_of_adv (hoff : mainEnabled s = false) (hadv : s.adv ≠ 0) : chooseStep s = .time := by
  simp [chooseStep, preempts, hoff, hadv]

theorem chooseStep_idle (hoff : mainEnabled s = false) (hadv : s.adv = 0) (htrace : s.trace = []) : chooseStep s = .idle := by
  simp [chooseStep, preempts, hoff, hadv, htrace]

theorem dropStimulus_of_cons {st : Stimulus} {rest : List Stimulus} (htrace : s.trace = st :: rest) :
    dropStimulus s = { s with trace := rest } := by
  rw [dropStimulus, htrace, List.tail_cons]

/-- Settles O6: the stimulus is chosen (`chooseStep_stimulus`), decoded and run without its word in the trace. -/
theorem stepRunsTheStimulusWord : Obligations.StepRunsTheStimulusWord := fun s st rest htrace hadv hnow => by
  have hstep : step s = stimulusStep s := by rw [step, chooseStep_stimulus htrace hadv hnow]
  refine ⟨fun i hdec => ?accepted, fun r hdec => ?reserved⟩
  case accepted => simp only [hstep, stimulusStep, htrace, hdec, dropStimulus_of_cons htrace]
  case reserved => simp only [hstep, stimulusStep, htrace, hdec]

/-- No lead is counted during an advance, at the end of the trace or before a word that waits. -/
theorem countLead_same (h : s.adv ≠ 0 ∨ s.trace = [] ∨ ∃ w rest, s.trace = ⟨w, none⟩ :: rest) : countLead s = s := by
  suffices htrace : (countLead s).trace = s.trace by
    show { s with trace := (countLead s).trace } = s
    rw [htrace]
  rw [countLead]
  split
  · next hadv hcons => simp [hadv, hcons] at h
  · rfl

theorem countLead_counts {w : Word} {k : Nat} {rest : List Stimulus} (hadv : s.adv = 0)
    (htrace : s.trace = ⟨w, some (k + 1)⟩ :: rest) : countLead s = { s with trace := ⟨w, some k⟩ :: rest } := by
  simp only [countLead, hadv, htrace]

/-- Settles O7: MAIN is chosen (`chooseStep_main_of_enabled`), and its step counts the lead of the next stimulus or not. -/
theorem stepRunsThePhaseAtPh : Obligations.StepRunsThePhaseAtPh := fun s i hen hwaits hdec => by
  have hstep : step s = exec i (countLead s) := by
    rw [step, chooseStep_main_of_enabled hen hwaits]
    simp only [mainStep, hdec]
  exact ⟨fun hsame => by rw [hstep, countLead_same hsame],
    fun w k rest hadv htrace => by rw [hstep, countLead_counts hadv htrace]⟩

/-! ### Time (R206 a, R208) -/

theorem passTime_enabled (hen : mainEnabled s = true) : passTime s = s := if_pos hen

theorem passTime_off (hoff : mainEnabled s = false) :
    passTime s = { s with T := s.T + freeRun s, adv := s.adv - freeRun s } := if_neg (Bool.eq_false_iff.mp hoff)

/-- The deadline of the wait lies inside the advance. -/
theorem passTime_to_deadline (hoff : mainEnabled s = false) (hwait : waitingPair s = true) (hin : s.dl ≤ s.T + s.adv) :
    passTime s = { s with T := s.T + (s.dl - s.T), adv := s.adv - (s.dl - s.T) } := by
  have hrun : freeRun s = s.dl - s.T := by
    rw [freeRun, if_pos hwait, Nat.min_eq_right (by omega)]
  rw [passTime_off hoff, hrun]

/-- No deadline lies inside the advance: all of it passes. -/
theorem passTime_whole (hoff : mainEnabled s = false) (hout : waitingPair s = true → s.T + s.adv ≤ s.dl) :
    passTime s = { s with T := s.T + s.adv, adv := 0 } := by
  have hrun : freeRun s = s.adv := by
    rw [freeRun]
    split
    · next hwait =>
      have hlate := hout hwait
      exact Nat.min_eq_left (by omega)
    · rfl
  rw [passTime_off hoff, hrun, Nat.sub_self]

/-- Settles O8: time is chosen while an advance is under way, and passes to the deadline or to the advance's end. -/
theorem stepPassesTimeOrIdles : Obligations.StepPassesTimeOrIdles := fun s hoff => by
  have htime : s.adv ≠ 0 → step s = .next (passTime s) := fun hadv => by rw [step, chooseStep_time_of_adv hoff hadv]
  refine ⟨fun hadv hwait hin => ?deadline, fun hadv hout => ?whole, fun hadv htrace => ?idle⟩
  case deadline => rw [htime hadv, passTime_to_deadline hoff hwait (Nat.le_of_lt hin)]
  case whole =>
    have hlate : waitingPair s = true → s.T + s.adv ≤ s.dl := fun hwait =>
      hout.resolve_left fun hnever => absurd (hwait.symm.trans hnever) (by decide)
    rw [htime hadv, passTime_whole hoff hlate]
  case idle => rw [step, chooseStep_idle hoff hadv htrace]

theorem exec_adv_live (hlive : s.held = false) (n : BitVec 28) :
    exec (.adv n) s = .next (passTime { s with adv := s.adv + n.toNat }) := whenLive_live hlive _

/-- Settles O12: `passTime` by its three cases. -/
theorem advPassesTimeUpToTheDeadline : Obligations.AdvPassesTimeUpToTheDeadline := fun s n hlive => by
  rw [exec_adv_live hlive]
  refine congrArg _ ?_
  split
  · next hen => exact passTime_enabled (s := { s with adv := s.adv + n.toNat }) hen
  · next hoff =>
    have hoff : mainEnabled { s with adv := s.adv + n.toNat } = false := Bool.eq_false_iff.mpr hoff
    split
    · next hin => exact passTime_to_deadline hoff hin.1 (Nat.le_of_lt hin.2)
    · next hout => exact passTime_whole hoff fun hwait => Nat.not_lt.mp fun hin => hout ⟨hwait, hin⟩

/-- `n` more microseconds of an advance. -/
def advanceBy (s : State) (n : Nat) : State := { s with adv := s.adv + n }

/-- An advance in two parts passes as one: the first part ends short of the deadline of a wait, or at it, where no more time passes. -/
theorem passTime_advanceBy_add (hlive : s.held = false) (m n : Nat) :
    passTime (advanceBy (passTime (advanceBy s m)) n) = passTime (advanceBy s (m + n)) := by
  cases hen : mainEnabled s with
  | true =>
    have henBy (k : Nat) : passTime (advanceBy s k) = advanceBy s k := passTime_enabled (s := advanceBy s k) hen
    rw [henBy, henBy, advanceBy, advanceBy, advanceBy, ← Nat.add_assoc]
    exact passTime_enabled (s := { s with adv := s.adv + m + n }) hen
  | false =>
    have hoff (k : Nat) : mainEnabled (advanceBy s k) = false := hen
    by_cases hpart : waitingPair s = true ∧ s.dl ≤ s.T + (s.adv + m)
    case pos =>
      obtain ⟨hwait, hin⟩ := hpart
      rw [passTime_to_deadline (hoff m) hwait hin, passTime_to_deadline (hoff (m + n)) hwait (by simp only [advanceBy]; omega)]
      refine (passTime_enabled (mainEnabled_at_deadline hlive hwait (by simp only [advanceBy]; omega) _)).trans ?_
      simp only [advanceBy]
      congr 1
      omega
    case neg =>
      have hshort : waitingPair s = true → s.T + (s.adv + m) < s.dl := fun hwait => Nat.not_le.mp fun hin => hpart ⟨hwait, hin⟩
      have hlater : mainEnabled { s with T := s.T + (s.adv + m), adv := 0 + n } = false := mainEnabled_later hen hshort _
      have hrun : s.adv + m + freeRun { s with T := s.T + (s.adv + m), adv := 0 + n } = freeRun (advanceBy s (m + n)) := by
        simp only [freeRun, advanceBy]
        change _ + (if waitingPair s then _ else _) = if waitingPair s then _ else _
        split
        · next hwait =>
          have hdl := hshort hwait
          omega
        · omega
      rw [passTime_whole (hoff m) fun hwait => Nat.le_of_lt (hshort hwait), passTime_off (hoff (m + n)), ← hrun]
      refine (passTime_off hlater).trans ?_
      simp only [advanceBy, Nat.add_assoc]
      congr 1
      omega

theorem passTime_still (hadv : s.adv = 0) : passTime s = s := by
  rcases passTime_cases s with ⟨_, h⟩ | ⟨_, h⟩
  · exact h
  · have hrun : freeRun s = 0 := Nat.le_zero.mp (hadv ▸ freeRun_le s)
    rw [h, hrun]
    rfl

/-- Settles O13: the second advance goes on where the first one stopped (`passTime_advanceBy_add`). -/
theorem advAddsUp : Obligations.AdvAddsUp := fun s hlive => by
  refine ⟨fun hadv => ?zero, fun a b hfits => ?sum⟩
  case zero => exact (exec_adv_live hlive 0#28).trans (congrArg _ (passTime_still (s := { s with adv := s.adv + 0 }) hadv))
  case sum =>
    have hsum : (a + b).toNat = a.toNat + b.toNat := by rw [BitVec.toNat_add, Nat.mod_eq_of_lt hfits]
    have hstill : (passTime (advanceBy s a.toNat)).held = false := by
      rcases passTime_cases (advanceBy s a.toNat) with ⟨_, h⟩ | ⟨_, h⟩ <;> rw [h] <;> exact hlive
    refine ⟨_, _, exec_adv_live hlive a, exec_adv_live hstill b, ?_⟩
    rw [exec_adv_live hlive, hsum]
    exact congrArg _ (passTime_advanceBy_add hlive a.toNat b.toNat).symm

/-! ### JOY (R210) -/

/-- A JOY word is its opcode and the two readings as digits of base 2^14 (R85). -/
theorem encode_joy (x y : Reading) : encode (.joy x y) = .stim (BitVec.ofNat 32 (0x30000000 + 16384 * x.toNat + y.toNat)) := by
  have hx := x.isLt
  have hy := y.isLt
  refine congrArg Code.stim (BitVec.eq_of_toNat_eq ?_)
  rw [append_toNat, append_toNat, BitVec.toNat_ofNat, BitVec.toNat_ofNat]
  omega

/-- Settles O14: the word is `encode_joy`; a reading is accepted exactly below PERIOD (`readingOk_iff`). -/
theorem joySetsTheInputLevels : Obligations.JoySetsTheInputLevels := fun s x y => by
  refine ⟨encode_joy x y, fun ⟨hx, hy⟩ => ?inside, fun hout => ?outside⟩
  case inside => exact if_pos (by rw [(readingOk_iff _ _).mpr hx, (readingOk_iff _ _).mpr hy]; rfl)
  case outside =>
    refine if_neg fun hok => ?_
    obtain ⟨hx, hy⟩ := Bool.and_eq_true_iff.mp hok
    rw [readingOk_iff] at hx hy
    omega

/-! ### The waits (R205, R222) -/

/-- Settles O34: each wait is `whenDue` of its step (`whenDue_wait`), PH_PLAY the wait that its code in `ms` selects. -/
theorem waitsHoldBeforeTheDeadline : Obligations.WaitsHoldBeforeTheDeadline := fun s hlive hahead => by
  have hwait (o : Result) : whenLive s (whenDue s o) = .next s := (whenLive_live hlive _).trans (whenDue_wait hahead _)
  refine ⟨hwait _, hwait _, hwait _, hwait _, hwait _, fun hlo hhi => ?play⟩
  case play =>
    have hplay {i : Instr} {c : BitVec 3} (hms : s.ms = c) (hdec : decode (.mstate c) = .ok i) (hi : i ≠ .mIdle)
        (hexec : exec i s = .next s) : exec .phPlay s = .next s :=
      (exec_phPlay_of_decode (by rw [hms, hdec]) hi).trans hexec
    rcases waitCode_cases hlo hhi with hms | hms | hms | hms
    · exact hplay (i := .mHigh) hms rfl (by decide) (hwait _)
    · exact hplay (i := .mLow) hms rfl (by decide) (hwait _)
    · exact hplay (i := .mRest) hms rfl (by decide) (hwait _)
    · exact hplay (i := .mGap) hms rfl (by decide) (hwait _)

end

end Sys2Proof.Machine
end

section
/-! SUPPORT. The step function refines the step relation (46_main_sequencer.md R205 to R208): every operation but ADV runs alike with and
without the model's bookkeeping of the environment, and time passes as the relation allows. -/

namespace Sys2Proof.Machine

/-! ### Operations without the bookkeeping -/

/-- An outcome without the bookkeeping of its next state. -/
def bareOutcome : Result → Result
  | .next s => .next (bare s)
  | .fault r => .fault r
  | .refused r => .refused r

/-- The meaning `f` runs alike on a state and on the same state without the bookkeeping. -/
def IgnoresEnvironment (f : State → Result) : Prop := ∀ s, f (bare s) = bareOutcome (f s)

namespace IgnoresEnvironment

variable {f : State → Result}

theorem next {g : State → State} (h : ∀ s, g (bare s) = bare (g s)) : IgnoresEnvironment (fun s => .next (g s)) :=
  fun s => congrArg Host.Outcome.next (h s)

theorem refused (r : Refusal) : IgnoresEnvironment (fun _ => .refused r) := fun _ => rfl

/-- A branch on a condition that the bookkeeping does not enter. -/
theorem ite {c : State → Bool} {g : State → Result} (hc : ∀ s, c (bare s) = c s) (hf : IgnoresEnvironment f)
    (hg : IgnoresEnvironment g) : IgnoresEnvironment (fun s => if c s then f s else g s) := fun s => by
  simp only [hc]
  split
  · exact hf s
  · exact hg s

theorem whenLive (h : IgnoresEnvironment f) : IgnoresEnvironment (fun s => whenLive s (f s)) :=
  .ite (fun _ => rfl) (.refused _) h

theorem whenDue (h : IgnoresEnvironment f) : IgnoresEnvironment (fun s => whenDue s (f s)) :=
  .ite (fun _ => rfl) h (.next fun _ => rfl)

theorem thenPhase {p : BitVec 4} (h : IgnoresEnvironment f) : IgnoresEnvironment (fun s => thenPhase p (f s)) := fun s => by
  simp only [h s]
  cases f s <;> rfl

end IgnoresEnvironment

/-! ### The shared operations -/

theorem melreq_bare (s : State) (k : MelodyNo) : melreq (bare s) k = melreq s k := by
  cases k <;> rfl

theorem buttonAction_ignoresEnvironment (btn : Button) : IgnoresEnvironment (fun s => buttonAction s btn) := by
  cases btn with
  | a => exact .next fun _ => rfl
  | b =>
    intro s
    simp only [buttonAction, bare_sel]
    cases selectedMelody s.sel with
    | some k => cases k <;> rfl
    | none => rfl

theorem edgeStep_ignoresEnvironment (btn : Button) : IgnoresEnvironment (fun s => edgeStep s btn) :=
  .ite (fun _ => rfl) (fun s => buttonAction_ignoresEnvironment btn (acceptEdge s btn)) (.next fun _ => rfl)

theorem rgbFire_ignoresEnvironment : IgnoresEnvironment rgbFire := fun s => by
  rw [rgbFire, rgbFire, bare_rgbState]
  split <;> rfl

theorem rgbStep_ignoresEnvironment : IgnoresEnvironment rgbStep :=
  .ite (fun _ => rfl) (.ite (fun _ => rfl) rgbFire_ignoresEnvironment (.next fun _ => rfl)) (.next fun _ => rfl)

theorem serviceSlot_bare (k : MelodyNo) (s : State) : serviceSlot (bare s) k = bare (serviceSlot s k) := by
  rw [serviceSlot, serviceSlot, melreq_bare, bare_cfg]
  split
  · cases s.cfg.melreqClear <;> cases k <;> rfl
  · cases k <;> rfl

theorem endMelody_bare (s : State) (k : MelodyNo) : endMelody (bare s) k = bare (endMelody s k) := by
  rw [endMelody, endMelody, bare_cfg]
  cases s.cfg.melreqClear <;> cases k <;> rfl

theorem enterNote_bare (s : State) (w : Word) : enterNote (bare s) w = bare (enterNote s w) := by
  rw [enterNote, enterNote, bare_cfg]
  split
  · rfl
  · split <;> rfl

theorem fetchNote_ignoresEnvironment : IgnoresEnvironment fetchNote := fun s => by
  rw [fetchNote, fetchNote, bare_mel, bare_ni, bare_cfg]
  split
  · rfl
  · split
    · exact congrArg Host.Outcome.next (endMelody_bare s _)
    · split
      · exact congrArg Host.Outcome.next (enterNote_bare s _)
      · rfl

theorem lowEnd_bare (s : State) : lowEnd (bare s) = bare (lowEnd s) := by
  rw [lowEnd, lowEnd, bare_cyc]
  split
  · rfl
  · split <;> rfl

theorem gapEnd_bare (s : State) : gapEnd (bare s) = bare (gapEnd s) := by
  rw [gapEnd, gapEnd, bare_ni]
  split <;> rfl

/-! ### The operations -/

/-- PH_PLAY is the note sequencer's step that `ms` selects. -/
theorem execPhPlay_ignoresEnvironment : IgnoresEnvironment execPhPlay := .whenLive fun s => by
  rw [bare_ms]
  split
  · exact fetchNote_ignoresEnvironment s
  · exact IgnoresEnvironment.whenDue (.next (g := highEnd) fun _ => rfl) s
  · exact IgnoresEnvironment.whenDue (.next lowEnd_bare) s
  · exact IgnoresEnvironment.whenDue (.next (g := restEnd) fun _ => rfl) s
  · exact IgnoresEnvironment.whenDue (.next gapEnd_bare) s
  · rfl

/-- ADV apart, every stimulus and every phase runs alike without the bookkeeping: none reads it, and RST alone writes of it, ending an
advance that `bare` leaves out. -/
theorem exec_ignoresEnvironment {p : BitVec 4} {i : Instr} (hi : Fetched p i) (hadv : ∀ n, i ≠ .adv n) :
    IgnoresEnvironment (exec i) := by
  cases i with
  | adv n => exact absurd rfl (hadv n)
  | rst => exact .next fun _ => rfl
  | btnA => exact .whenLive (edgeStep_ignoresEnvironment .a)
  | btnB => exact .whenLive (edgeStep_ignoresEnvironment .b)
  | joy x y =>
    exact .ite (c := fun s => readingOk s.cfg x && readingOk s.cfg y) (fun _ => rfl) (.next fun _ => rfl) (.refused _)
  | phInit | phSample | phMapd | phMapm | phDz | phMsend | phDraw => exact .whenLive (.next fun _ => rfl)
  | phRgb => exact .whenLive (.thenPhase rgbStep_ignoresEnvironment)
  | phMbuf =>
    refine .whenLive fun s => ?_
    rw [bare_cfg, bare_colSel]
    cases selectedColour s.cfg s.colSel <;> rfl
  | phSvc1 => exact .whenLive (.next (serviceSlot_bare .one))
  | phSvc2 => exact .whenLive (.next (serviceSlot_bare .two))
  | phSvc3 => exact .whenLive (.next (serviceSlot_bare .three))
  | phPlay => exact execPhPlay_ignoresEnvironment
  | phSleep => exact .whenLive (.whenDue (.next fun _ => rfl))
  | _ => exact hi.elim

theorem exec_bare {p : BitVec 4} {i : Instr} {s t : State} (hi : Fetched p i) (hadv : ∀ n, i ≠ .adv n) (h : exec i s = .next t) :
    exec i (bare s) = .next (bare t) := by
  rw [exec_ignoresEnvironment hi hadv s, h]
  rfl

/-! ### The steps -/

section

variable {s t : State}

/-- Time that passes is a step of the relation: it ends at the deadline of a wait at the latest. -/
theorem passTime_refines (hlive : s.held = false) : bare (passTime s) = bare s ∨ Rel (bare s) (bare (passTime s)) := by
  rcases passTime_cases s with ⟨_, h⟩ | ⟨hoff, h⟩ <;> rw [h]
  · exact .inl rfl
  · refine .inr (Rel.time (s := bare s) (freeRun s) hoff hlive fun hwait => ?_)
    have hahead : s.T < s.dl := waiting_ahead hoff hlive hwait
    have hstop : freeRun s ≤ s.dl - s.T := freeRun_deadline hwait
    simp only [bare_T, bare_dl]
    omega

/-- The operation at `ph` is MAIN's step of the relation. -/
theorem mainStep_refines (hen : mainEnabled s = true) (h : mainStep s = .next t) : Rel (bare s) (bare t) := by
  obtain ⟨i, hdec, hexec⟩ := mainStep_next h
  exact Rel.main hen hdec (exec_bare (s := countLead s) (fetched_of_phase hdec) (decodePhase_cases hdec).2 hexec)

/-- A stimulus is a step of the environment; ADV is time that passes. -/
theorem stimulusStep_refines (h : stimulusStep s = .next t) : bare t = bare s ∨ Rel (bare s) (bare t) := by
  rcases stimulusStep_next h with ⟨_, rfl⟩ | ⟨st, rest, i, _, hdec, hexec⟩
  · exact .inl rfl
  · have hi : Fetched s.ph i := fetched_of_stimulus s.ph hdec
    rcases decodeStim_cases hdec with rfl | ⟨n, rfl⟩ | rfl | rfl | ⟨x, y, rfl⟩
    · exact .inr (.reset (exec_bare (s := { s with trace := rest }) hi (by simp) hexec))
    · obtain ⟨hlive, hpass⟩ := whenLive_next hexec
      cases hpass
      exact passTime_refines (s := { s with trace := rest, adv := s.adv + n.toNat }) hlive
    · exact .inr (.edgeA (exec_bare (s := { s with trace := rest }) hi (by simp) hexec))
    · exact .inr (.edgeB (exec_bare (s := { s with trace := rest }) hi (by simp) hexec))
    · exact .inr (.joy x y (exec_bare (s := { s with trace := rest }) hi (by simp) hexec))

end

/-- Settles O53: a step is a stimulus, MAIN's, time or nothing (`step_cases`), and each refines the relation. -/
theorem stepRefinesTheStepRelation : Obligations.StepRefinesTheStepRelation := fun s t hstill h => by
  rcases step_cases h with ⟨_, rfl⟩ | ⟨hchoice, rfl⟩ | ⟨hchoice, hmain⟩ | ⟨_, hstim⟩
  · exact .inl rfl
  · have hlive : s.held = false := Bool.eq_false_iff.mpr fun hheld => (chooseStep_time hchoice).2 (hstill hheld)
    exact passTime_refines hlive
  · exact .inr (mainStep_refines (chooseStep_main hchoice) hmain)
  · exact stimulusStep_refines hstim

end Sys2Proof.Machine
end

section
/-! SUPPORT. The sequence of MAIN's phases (46_main_sequencer.md R212, R220, R224): MAIN's step by the code in `ph`, that it always answers
under the invariant, and the phase after it. -/

namespace Sys2Proof.Machine

/-! ### The operation at `ph` -/

/-- Every legal phase code has an operation (R86). -/
theorem exists_phaseOp {p : BitVec 4} (hp : p.toNat ≤ 13) : ∃ i, decode (.phase p) = .ok i := by
  have hall : ∀ q : BitVec 4, q.toNat ≤ 13 → (acceptedInstr (decodePhase q)).isSome = true := by decide
  have hsome := hall p hp
  cases hdec : decodePhase p with
  | ok i => exact ⟨i, hdec⟩
  | error r => rw [hdec] at hsome; cases hsome

/-- The phase of a service slot. -/
def slotPhase : MelodyNo → BitVec 4
  | .one => 9#4
  | .two => 10#4
  | .three => 11#4

/-- The phase after a service slot (R213). -/
def afterPhase : MelodyNo → BitVec 4
  | .one => 10#4
  | .two => 11#4
  | .three => 13#4

section

variable {s t : State} {i : Instr}

theorem afterSlot_ph (s : State) (k : MelodyNo) : (afterSlot s k).ph = afterPhase k := by cases k <;> rfl

theorem serviceSlot_ph (s : State) (k : MelodyNo) : (serviceSlot s k).ph = if melreq s k then 12#4 else afterPhase k := by
  cases hk : melreq s k with
  | true => rw [serviceSlot_of_set hk]; rfl
  | false => rw [serviceSlot_of_clear hk, afterSlot_ph]; rfl

theorem endMelody_ph (s : State) (k : MelodyNo) : (endMelody s k).ph = afterPhase k := by rw [endMelody_flag, afterSlot_ph]

/-- MAIN sleeps until its deadline. -/
theorem mainEnabled_sleep (hen : mainEnabled s = true) (hph : s.ph = 13#4) : s.dl ≤ s.T := by
  obtain ⟨_, hrow⟩ := (enablingConditionsOfMain s).mp hen
  simp [hph] at hrow
  exact hrow.2

/-- An enabled step of PH_PLAY: a fetch, or the end of the wait that `ms` names (45_melody_sequencer.md R181). -/
theorem phPlay_next (hen : mainEnabled s = true) (hph : s.ph = 12#4) (h : exec .phPlay s = .next t) :
    (s.ms = 1#3 ∧ fetchNote s = .next t) ∨ (s.ms = 2#3 ∧ t = highEnd s) ∨ (s.ms = 3#3 ∧ t = lowEnd s) ∨
    (s.ms = 4#3 ∧ t = restEnd s) ∨ (s.ms = 5#3 ∧ t = gapEnd s) := by
  obtain ⟨hlive, hms | ⟨⟨hlo, hhi⟩, hdue⟩⟩ := (mainEnabled_play_iff hph).mp hen
  · rw [exec_phPlay_of_decode (i := .mFetch) (by rw [hms]; rfl) (by decide), exec_mFetch_live hlive] at h
    exact .inl ⟨hms, h⟩
  · rcases waitCode_cases hlo hhi with hms | hms | hms | hms
    · rw [exec_phPlay_of_decode (i := .mHigh) (by rw [hms]; rfl) (by decide), exec_mHigh_due hlive hdue] at h
      cases h; exact .inr (.inl ⟨hms, rfl⟩)
    · rw [exec_phPlay_of_decode (i := .mLow) (by rw [hms]; rfl) (by decide), exec_mLow_due hlive hdue] at h
      cases h; exact .inr (.inr (.inl ⟨hms, rfl⟩))
    · rw [exec_phPlay_of_decode (i := .mRest) (by rw [hms]; rfl) (by decide), exec_mRest_due hlive hdue] at h
      cases h; exact .inr (.inr (.inr (.inl ⟨hms, rfl⟩)))
    · rw [exec_phPlay_of_decode (i := .mGap) (by rw [hms]; rfl) (by decide), exec_mGap_due hlive hdue] at h
      cases h; exact .inr (.inr (.inr (.inr ⟨hms, rfl⟩)))

/-- Everything an enabled step of MAIN can be: on to the next phase, a service slot, a step of PH_PLAY, or the end of the sleep. -/
theorem phaseOp_next (hen : mainEnabled s = true) (hdec : decode (.phase s.ph) = .ok i) (h : exec i s = .next t) :
    (s.ph.toNat ≤ 8 ∧ t.ph.toNat = s.ph.toNat + 1) ∨ (∃ k, s.ph = slotPhase k ∧ t = serviceSlot s k) ∨
    (s.ph = 12#4 ∧ exec .phPlay s = .next t) ∨ (s.ph = 13#4 ∧ t = { s with ph := 1#4 }) := by
  have hi : Fetched s.ph i := fetched_of_phase hdec
  have hlive : s.held = false := ((mainEnabled_iff s).mp hen).1
  have hnext {p q : BitVec 4} (hp : s.ph = p) (hq : p.toNat ≤ 8 ∧ q.toNat = p.toNat + 1) (ha : Answers (·.ph = q) (exec i s)) :
      s.ph.toNat ≤ 8 ∧ t.ph.toNat = s.ph.toNat + 1 := by
    rw [hp, ha t h]; exact hq
  have hslot (k : MelodyNo) (hk : slotOp k = i) (hp : s.ph = slotPhase k) : ∃ k, s.ph = slotPhase k ∧ t = serviceSlot s k := by
    rw [← hk, exec_slotOp hlive k] at h
    cases h
    exact ⟨k, hp, rfl⟩
  cases i with
  | phInit => exact .inl (hnext hi (q := 1#4) (by decide) (.whenLive (.next rfl)))
  | phRgb => exact .inl (hnext hi (q := 2#4) (by decide) (.whenLive (.thenPhase fun _ _ => rfl)))
  | phSample => exact .inl (hnext hi (q := 3#4) (by decide) (.whenLive (.next rfl)))
  | phMapd => exact .inl (hnext hi (q := 4#4) (by decide) (.whenLive (.next rfl)))
  | phMapm => exact .inl (hnext hi (q := 5#4) (by decide) (.whenLive (.next rfl)))
  | phDz => exact .inl (hnext hi (q := 6#4) (by decide) (.whenLive (.next rfl)))
  | phMbuf => exact .inl (hnext hi (q := 7#4) (by decide) fun u hu => by obtain ⟨_, _, rfl⟩ := execPhMbuf_next hu; rfl)
  | phMsend => exact .inl (hnext hi (q := 8#4) (by decide) (.whenLive (.next rfl)))
  | phDraw => exact .inl (hnext hi (q := 9#4) (by decide) (.whenLive (.next rfl)))
  | phSvc1 => exact .inr (.inl (hslot .one rfl hi))
  | phSvc2 => exact .inr (.inl (hslot .two rfl hi))
  | phSvc3 => exact .inr (.inl (hslot .three rfl hi))
  | phPlay => exact .inr (.inr (.inl ⟨hi, h⟩))
  | phSleep =>
    rw [exec_phSleep_due hlive (mainEnabled_sleep hen hi)] at h
    cases h
    exact .inr (.inr (.inr ⟨hi, rfl⟩))
  | rst | adv n | btnA | btnB | joy x y => cases encode_of_decode hdec
  | _ => exact hi.elim

/-! ### MAIN always answers (R224; 60_exceptions.md R240) -/

theorem exec_phRgb_completes (hlive : s.held = false) (hstate : s.rgbState ≠ 3#2) : ∃ t, exec .phRgb s = .next t := by
  have hdecision : ∃ u, rgbStep s = .next u := by
    cases hen : s.rgbEn with
    | false => exact ⟨_, rgbStep_of_disabled hen⟩
    | true =>
      rcases Nat.lt_or_ge s.T (s.rgbLast + 300000) with hwait | hdue
      · exact ⟨_, rgbStep_of_not_due hen hwait⟩
      · rw [rgbStep_of_due hen hdue]
        exact rgbFire_completes hstate
  obtain ⟨u, hu⟩ := hdecision
  exact ⟨{ u with ph := 2#4 }, by rw [exec_phRgb_live hlive, hu]; rfl⟩

theorem exists_selectedColour (c : Config) {v : BitVec 2} (h : v ≠ 3#2) : ∃ colour, selectedColour c v = some colour := by
  rcases legal_code h with rfl | rfl | rfl <;> exact ⟨_, rfl⟩

/-- The invariant shuts out the reserved codes, and `ni` past the end of its melody. -/
theorem phaseOp_completes (hinv : BlockInv s) (hen : mainEnabled s = true) (hdec : decode (.phase s.ph) = .ok i) :
    ∃ t, exec i s = .next t := by
  have hi : Fetched s.ph i := fetched_of_phase hdec
  have hlive : s.held = false := ((mainEnabled_iff s).mp hen).1
  cases i with
  | phInit | phSample | phMapd | phMapm | phDz | phMsend | phDraw | phSvc1 | phSvc2 | phSvc3 => exact ⟨_, whenLive_live hlive _⟩
  | phRgb => exact exec_phRgb_completes hlive hinv.regs.rgbStateLegal
  | phMbuf =>
    obtain ⟨colour, hcolour⟩ := exists_selectedColour s.cfg hinv.regs.colSelLegal
    exact ⟨_, exec_phMbuf_selected hlive hcolour⟩
  | phPlay =>
    obtain ⟨_, t, _, _, hplay, _⟩ := playCompletesUnderTheInvariant s hinv hen hi
    exact ⟨t, hplay⟩
  | phSleep => exact ⟨_, exec_phSleep_due hlive (mainEnabled_sleep hen hi)⟩
  | rst | adv n | btnA | btnB | joy x y => cases encode_of_decode hdec
  | _ => exact hi.elim

/-- Settles O54: the code in `ph` is legal (`exists_phaseOp`) and its operation answers (`phaseOp_completes`). -/
theorem mainNeverStops : Obligations.MainNeverStops := fun s hinv hen => by
  obtain ⟨i, hdec⟩ := exists_phaseOp hinv.regs.phLegal
  obtain ⟨t, ht⟩ := phaseOp_completes (hinv.setTrace (countLead s).trace) hen hdec
  exact ⟨t, by simp only [mainStep, hdec]; exact ht⟩

/-! ### The phase after (R212) -/

/-- A step of PH_PLAY stays there, or ends the melody and returns behind its slot (45_melody_sequencer.md R185). -/
theorem phPlay_ph (hen : mainEnabled s = true) (hph : s.ph = 12#4) (h : exec .phPlay s = .next t) :
    t.ph = 12#4 ∨ ∃ k, s.mel = melodyCode k ∧ t.ph = afterPhase k := by
  rcases phPlay_next hen hph h with ⟨_, hfetch⟩ | ⟨_, rfl⟩ | ⟨_, rfl⟩ | ⟨_, rfl⟩ | ⟨_, rfl⟩
  · obtain ⟨k, hk, ⟨_, rfl⟩ | ⟨_, w, _, rfl⟩⟩ := fetchNote_next hfetch
    · exact .inr ⟨k, melodyOfCode_eq_some.mp hk, endMelody_ph s k⟩
    · exact .inl ((enterNote_ph s w).trans hph)
  · exact .inl hph
  · exact .inl ((congrArg State.ph (lowEnd_framed s)).trans hph)
  · exact .inl hph
  · exact .inl ((congrArg State.ph (gapEnd_framed s)).trans hph)

/-- Settles O55: the successor of each phase is read off `phaseOp_next`; the step counts a lead beside that. -/
theorem phasesFollowOneAnotherInOrder : Obligations.PhasesFollowOneAnotherInOrder := fun s t _ hen ht => by
  obtain ⟨i, hdec, hexec⟩ := mainStep_next ht
  rcases phaseOp_next (s := countLead s) hen hdec hexec with ⟨hlow, hnext⟩ | ⟨k, hph, rfl⟩ | ⟨hph, hplay⟩ | ⟨hph, rfl⟩
  · have hother {p : BitVec 4} (hp : 8 < p.toNat) : s.ph ≠ p := fun h => Nat.not_lt.mpr hlow (h ▸ hp)
    exact ⟨fun _ => hnext, fun h => absurd h (hother (by decide)), fun h => absurd h (hother (by decide)),
      fun h => absurd h (hother (by decide)), fun h => absurd h (hother (by decide)), fun h => absurd h (hother (by decide))⟩
  · rw [countLead_ph] at hph
    cases k <;> simp [hph, slotPhase, serviceSlot_ph, afterPhase, melreq] <;> rfl
  · rw [countLead_ph] at hph
    rcases phPlay_ph (s := countLead s) hen hph hplay with hstay | ⟨k, hk, hback⟩
    · simp [hph, hstay]
    · cases k <;> simp_all [melodyCode, afterPhase]
  · rw [countLead_ph] at hph
    simp [hph]

end

end Sys2Proof.Machine
end

section
/-! SUPPORT. How many steps MAIN takes at one value of `T` (46_main_sequencer.md R206): a bound by phase that every enabled step lowers. -/

namespace Sys2Proof.Machine

/-- How many steps at most MAIN takes from `ph`, `ms` and `mel` until it waits for a deadline that lies ahead, if it is enabled now. The
longest run passes the three slots, each starting an empty melody: 9 - 2 k steps from slot `k`, 8 - 2 k from the fetch of melody `k`. -/
def stepsAtPhase (s : State) : Nat :=
  if s.ph.toNat ≤ 8 then 16 - s.ph.toNat
  else if s.ph.toNat ≤ 11 then 25 - 2 * s.ph.toNat
  else if s.ph = 12#4 then
    if s.ms = 1#3 then 8 - 2 * s.mel.toNat
    else if s.ms = 5#3 then 9 - 2 * s.mel.toNat
    else 1
  else 16

/-- The bound of a state: none where MAIN is not enabled. -/
def stepsLeft (s : State) : Nat := if mainEnabled s then stepsAtPhase s else 0

section

variable {s t : State}

theorem stepsLeft_of_enabled (hen : mainEnabled s = true) : stepsLeft s = stepsAtPhase s := if_pos hen

theorem stepsLeft_of_off (hoff : mainEnabled s = false) : stepsLeft s = 0 := if_neg (Bool.eq_false_iff.mp hoff)

theorem stepsLeft_le_stepsAtPhase (s : State) : stepsLeft s ≤ stepsAtPhase s := by
  rw [stepsLeft]
  split
  · exact Nat.le_refl _
  · exact Nat.zero_le _

theorem stepsLeft_le (s : State) : stepsLeft s ≤ 16 := by
  refine Nat.le_trans (stepsLeft_le_stepsAtPhase s) ?_
  rw [stepsAtPhase]
  split_ifs <;> omega

theorem stepsAtPhase_low (hph : s.ph.toNat ≤ 8) : stepsAtPhase s = 16 - s.ph.toNat := if_pos hph

theorem stepsAtPhase_slot {k : MelodyNo} (hph : s.ph = slotPhase k) : stepsAtPhase s = 9 - 2 * (melodyCode k).toNat := by
  cases k <;> simp [stepsAtPhase, hph, slotPhase, melodyCode]

theorem stepsAtPhase_fetch (hph : s.ph = 12#4) (hms : s.ms = 1#3) : stepsAtPhase s = 8 - 2 * s.mel.toNat := by
  simp [stepsAtPhase, hph, hms]

theorem stepsAtPhase_gap (hph : s.ph = 12#4) (hms : s.ms = 5#3) : stepsAtPhase s = 9 - 2 * s.mel.toNat := by
  simp [stepsAtPhase, hph, hms]

theorem stepsAtPhase_wait (hph : s.ph = 12#4) (hms : s.ms = 2#3 ∨ s.ms = 3#3 ∨ s.ms = 4#3) : stepsAtPhase s = 1 := by
  rcases hms with hms | hms | hms <;> simp [stepsAtPhase, hph, hms]

theorem stepsAtPhase_sleep (hph : s.ph = 13#4) : stepsAtPhase s = 16 := by
  simp [stepsAtPhase, hph]

/-! ### Waits whose deadline lies ahead -/

theorem stepsLeft_of_sleeping (hph : s.ph = 13#4) (hahead : s.T < s.dl) : stepsLeft s = 0 :=
  stepsLeft_of_off (Bool.eq_false_iff.mpr fun hen => Nat.not_le.mpr hahead (mainEnabled_sleep hen hph))

theorem stepsLeft_of_waiting (hph : s.ph = 12#4) (hms : s.ms ≠ 1#3) (hahead : s.T < s.dl) : stepsLeft s = 0 := by
  refine stepsLeft_of_off (Bool.eq_false_iff.mpr fun hen => ?_)
  obtain ⟨_, hfetch | ⟨_, hdue⟩⟩ := (mainEnabled_play_iff hph).mp hen
  · exact hms hfetch
  · exact Nat.not_le.mpr hahead hdue

/-! ### Each enabled step lowers the bound -/

theorem stepsLeft_afterSlot (s : State) (k : MelodyNo) : stepsLeft (afterSlot s k) ≤ 7 - 2 * (melodyCode k).toNat := by
  cases k with
  | one => exact Nat.le_trans (stepsLeft_le_stepsAtPhase _) (Nat.le_of_eq (stepsAtPhase_slot (k := .two) rfl))
  | two => exact Nat.le_trans (stepsLeft_le_stepsAtPhase _) (Nat.le_of_eq (stepsAtPhase_slot (k := .three) rfl))
  | three =>
    rw [afterSlot_three, stepsLeft_of_sleeping rfl (Nat.lt_add_of_pos_right (by decide))]
    exact Nat.zero_le _

theorem stepsLeft_serviceSlot (s : State) (k : MelodyNo) : stepsLeft (serviceSlot s k) ≤ 8 - 2 * (melodyCode k).toNat := by
  cases hk : melreq s k with
  | true =>
    rw [serviceSlot_of_set hk]
    exact Nat.le_trans (stepsLeft_le_stepsAtPhase _) (Nat.le_of_eq (stepsAtPhase_fetch rfl rfl))
  | false =>
    rw [serviceSlot_of_clear hk]
    exact Nat.le_trans (stepsLeft_afterSlot s k) (by omega)

/-- A rest may last 0 ms, so that its M_REST is enabled at once; the gap after any entry lies ahead. -/
theorem stepsLeft_enterNote (hph : s.ph = 12#4) (w : Word) : stepsLeft (enterNote s w) ≤ 1 := by
  have hwait {u : State} (hu : u.ph = 12#4) (hms : u.ms = 2#3 ∨ u.ms = 3#3 ∨ u.ms = 4#3) : stepsLeft u ≤ 1 :=
    Nat.le_trans (stepsLeft_le_stepsAtPhase u) (Nat.le_of_eq (stepsAtPhase_wait hu hms))
  rw [enterNote]
  split
  · exact hwait hph (.inr (.inr rfl))
  · split
    · refine Nat.le_trans (Nat.le_of_eq (stepsLeft_of_waiting hph (by simp) ?_)) (Nat.zero_le 1)
      rw [fixed_val]
      exact Nat.lt_add_of_pos_right (by decide)
    · exact hwait hph (.inl rfl)

theorem stepsLeft_fetchNote (hph : s.ph = 12#4) (h : fetchNote s = .next t) : stepsLeft t < 8 - 2 * s.mel.toNat := by
  obtain ⟨k, hk, ⟨_, rfl⟩ | ⟨_, w, _, rfl⟩⟩ := fetchNote_next h
  · have hend : stepsLeft (endMelody s k) ≤ 7 - 2 * (melodyCode k).toNat := by
      rw [endMelody_flag]
      exact stepsLeft_afterSlot _ k
    have hcode := (melodyCode k).isLt
    rw [melodyOfCode_eq_some.mp hk]
    omega
  · have hentry := stepsLeft_enterNote hph w
    have hcode := s.mel.isLt
    omega

theorem stepsLeft_highEnd (hph : s.ph = 12#4) (hhalf : 0 < s.half.toNat) : stepsLeft (highEnd s) = 0 :=
  stepsLeft_of_waiting hph (by simp) (Nat.lt_add_of_pos_right hhalf)

theorem stepsLeft_lowEnd (hph : s.ph = 12#4) (hhalf : 0 < s.half.toNat) : stepsLeft (lowEnd s) = 0 := by
  rcases lowEnd_cases s with ⟨_, h⟩ | ⟨_, _, h⟩ | ⟨_, h⟩ <;> rw [h]
  · exact stepsLeft_of_waiting hph (by simp) (Nat.lt_add_of_pos_right (by decide))
  · exact stepsLeft_of_waiting hph (by simp) (Nat.lt_add_of_pos_right hhalf)
  · exact stepsLeft_of_waiting hph (by simp) (Nat.lt_add_of_pos_right hhalf)

theorem stepsLeft_restEnd (hph : s.ph = 12#4) : stepsLeft (restEnd s) = 0 := by
  rw [restEnd_eq]
  exact stepsLeft_of_waiting hph (by simp) (Nat.lt_add_of_pos_right (by decide))

theorem stepsLeft_gapEnd (hph : s.ph = 12#4) : stepsLeft (gapEnd s) ≤ 8 - 2 * s.mel.toNat := by
  have hph' : (gapEnd s).ph = 12#4 := (congrArg State.ph (gapEnd_framed s)).trans hph
  have hmel : (gapEnd s).mel = s.mel := (congrArg State.mel (gapEnd_framed s)).trans rfl
  rw [← hmel, ← stepsAtPhase_fetch hph' (gapEnd_ms s)]
  exact stepsLeft_le_stepsAtPhase _

theorem stepsLeft_phPlay (hinv : BlockInv s) (hen : mainEnabled s = true) (hph : s.ph = 12#4) (h : exec .phPlay s = .next t) :
    stepsLeft t < stepsAtPhase s := by
  rcases phPlay_next hen hph h with ⟨hms, hfetch⟩ | ⟨hms, rfl⟩ | ⟨hms, rfl⟩ | ⟨hms, rfl⟩ | ⟨hms, rfl⟩
  · rw [stepsAtPhase_fetch hph hms]
    exact stepsLeft_fetchNote hph hfetch
  · have hhalf := hinv.note.halfRange (.inl hms)
    rw [stepsLeft_highEnd hph (by omega), stepsAtPhase_wait hph (.inl hms)]
    exact Nat.one_pos
  · have hhalf := hinv.note.halfRange (.inr hms)
    rw [stepsLeft_lowEnd hph (by omega), stepsAtPhase_wait hph (.inr (.inl hms))]
    exact Nat.one_pos
  · rw [stepsLeft_restEnd hph, stepsAtPhase_wait hph (.inr (.inr hms))]
    exact Nat.one_pos
  · have hgap := stepsLeft_gapEnd hph
    have hcode := s.mel.isLt
    rw [stepsAtPhase_gap hph hms]
    omega

/-- An enabled step of MAIN lowers the bound. -/
theorem phaseOp_lowers_stepsLeft {i : Instr} (hinv : BlockInv s) (hen : mainEnabled s = true) (hdec : decode (.phase s.ph) = .ok i)
    (h : exec i s = .next t) : stepsLeft t < stepsLeft s := by
  rw [stepsLeft_of_enabled hen]
  rcases phaseOp_next hen hdec h with ⟨hlow, hnext⟩ | ⟨k, hph, rfl⟩ | ⟨hph, hplay⟩ | ⟨hph, rfl⟩
  · have ht := stepsLeft_le_stepsAtPhase t
    have hbound : stepsAtPhase t = 15 - s.ph.toNat := by
      rcases Nat.lt_or_ge s.ph.toNat 8 with hlt | hge
      · rw [stepsAtPhase_low (by omega)]
        omega
      · have hlast : s.ph.toNat = 8 := Nat.le_antisymm hlow hge
        have hslot : t.ph = 9#4 := BitVec.eq_of_toNat_eq (by rw [hnext, hlast]; rfl)
        rw [stepsAtPhase_slot (k := .one) hslot, hlast]
        rfl
    rw [stepsAtPhase_low hlow]
    omega
  · have hslot := stepsLeft_serviceSlot s k
    have hcode := (melodyCode k).isLt
    rw [stepsAtPhase_slot hph]
    omega
  · exact stepsLeft_phPlay hinv hen hph hplay
  · have hwoken : stepsAtPhase { s with ph := 1#4 } = 15 := stepsAtPhase_low (s := { s with ph := 1#4 }) (by decide : 1 ≤ 8)
    have ht := stepsLeft_le_stepsAtPhase { s with ph := 1#4 }
    rw [stepsAtPhase_sleep hph]
    omega

/-! ### Quiescence -/

/-- No operation writes the environment's trace. -/
theorem exec_trace {i : Instr} (h : exec i s = .next t) : t.trace = s.trace := by
  rw [exec_framed i s t h]
  cases i <;> rfl

/-- MAIN's enabled step with no stimulus pending: it answers at the same `T`, and lowers the bound. -/
theorem step_lowers_stepsLeft (hinv : BlockInv s) (htrace : s.trace = []) (hen : mainEnabled s = true) :
    ∃ t, step s = .next t ∧ BlockInv t ∧ t.trace = [] ∧ t.T = s.T ∧ stepsLeft t < stepsLeft s := by
  obtain ⟨i, hdec⟩ := exists_phaseOp hinv.regs.phLegal
  obtain ⟨t, hexec⟩ := phaseOp_completes hinv hen hdec
  have hstep : step s = .next t := by rw [step_main htrace hen, mainStep_eq htrace hdec, hexec]
  obtain ⟨hrst, hadv⟩ := decodePhase_cases hdec
  exact ⟨t, hstep, everyStepKeepsTheInvariant s t hinv hstep, (exec_trace hexec).trans htrace,
    onlyAdvAndRstChangeTime i s t hexec hrst hadv, phaseOp_lowers_stepsLeft hinv hen hdec hexec⟩

/-- MAIN takes its steps one after another until none is enabled, by induction on the bound. -/
theorem quiescence_within (n : Nat) (hinv : BlockInv s) (htrace : s.trace = []) (hleft : stepsLeft s ≤ n) :
    ∃ k t, k ≤ n ∧ runSteps k s = .next t ∧ mainEnabled t = false ∧ t.T = s.T := by
  induction n generalizing s with
  | zero =>
    refine ⟨0, s, Nat.le_refl 0, rfl, Bool.eq_false_iff.mpr fun hen => ?_, rfl⟩
    obtain ⟨_, _, _, _, _, hlower⟩ := step_lowers_stepsLeft hinv htrace hen
    omega
  | succ n ih =>
    cases hen : mainEnabled s with
    | false => exact ⟨0, s, Nat.zero_le _, rfl, hen, rfl⟩
    | true =>
      obtain ⟨u, hstep, hinvU, htraceU, hT, hlower⟩ := step_lowers_stepsLeft hinv htrace hen
      obtain ⟨k, t, hk, hrun, hoff, hTt⟩ := ih hinvU htraceU (by omega)
      exact ⟨1 + k, t, by omega, runSteps_add (runSteps_one hstep) hrun, hoff, hTt.trans hT⟩

/-- Settles O56: the bound never exceeds 16. -/
theorem quiescenceWithinTwentySteps : Obligations.QuiescenceWithinTwentySteps := fun s hinv _ htrace =>
  quiescence_within 20 hinv htrace (Nat.le_trans (stepsLeft_le s) (by decide))

end

end Sys2Proof.Machine
end

section
/-! SUPPORT. A tick in which no melody is serviced (46_main_sequencer.md R212, R219, R220): eleven phases in a row, then the sleep. -/

namespace Sys2Proof.Machine

/-- Live, with no melody playing and no stimulus pending. -/
structure Ticking (s : State) : Prop where
  live : s.held = false
  undisturbed : s.trace = []
  silent : s.ms = 0#3

section

variable {s t u : State} {i : Instr} {p : BitVec 4} {n : Nat}

/-! ### One phase after another -/

/-- A phase before PH_PLAY is enabled whatever `T` is. -/
theorem Ticking.step_phase (h : Ticking s) (hph : s.ph = p) (hp : p.toNat ≤ 11) (hdec : decode (.phase p) = .ok i) :
    step s = exec i s := by
  subst hph
  have halways : alwaysEnabled s = true := (alwaysEnabled_iff s).mpr (.inl ⟨hp, by rw [h.silent]; rfl⟩)
  rw [step_main h.undisturbed ((mainEnabled_iff s).mpr ⟨h.live, .inl halways⟩), mainStep_eq h.undisturbed hdec]

/-- A phase, and then a run. -/
theorem Ticking.phase_then (h : Ticking s) (hph : s.ph = p) (hp : p.toNat ≤ 11) (hdec : decode (.phase p) = .ok i)
    (hexec : exec i s = .next u) (hrun : runSteps n u = .next t) : runSteps (n + 1) s = .next t := by
  rw [Nat.add_comm]
  exact runSteps_add (runSteps_one ((h.step_phase hph hp hdec).trans hexec)) hrun

/-! ### The parts of a tick -/

theorem ledEvents_length_le (s : State) (red green blue : Bool) : (ledEvents s red green blue).length ≤ 1 := by
  rw [ledEvents]
  split
  · exact Nat.zero_le 1
  · exact Nat.le_refl 1

/-- PH_RGB writes the colour cycle and the LEDs, with one event at most (43_rgb_cycle.md R147). -/
theorem Ticking.cycles_colours (h : Ticking s) (hph : s.ph = 1#4) (hstate : s.rgbState ≠ 3#2) :
    ∃ u leds, runSteps 1 s = .next u ∧ leds.length ≤ 1 ∧ Ticking u ∧ u = { s with
      rgbState := u.rgbState, rgbLast := u.rgbLast, ledR := u.ledR, ledG := u.ledG, ledB := u.ledB, ph := 2#4,
      out := s.out ++ leds } := by
  obtain ⟨u, hexec⟩ := exec_phRgb_completes h.live hstate
  have hrun : runSteps 1 s = .next u := runSteps_one ((h.step_phase hph (by decide) rfl).trans hexec)
  obtain ⟨v, hv, rfl⟩ := thenPhase_next ((exec_phRgb_live h.live).symm.trans hexec)
  rcases rgbStep_next hv with ⟨_, rfl⟩ | ⟨_, _, rfl⟩ | ⟨_, _, hfire⟩
  · exact ⟨_, _, hrun, ledEvents_length_le s false false false, ⟨h.live, h.undisturbed, h.silent⟩, rfl⟩
  · exact ⟨_, [], hrun, Nat.zero_le 1, ⟨h.live, h.undisturbed, h.silent⟩, by rw [List.append_nil]⟩
  · obtain ⟨red, green, blue, _, _, rfl⟩ := rgbFire_next hfire
    exact ⟨_, _, hrun, ledEvents_length_le s red green blue, ⟨h.live, h.undisturbed, h.silent⟩, rfl⟩

/-- PH_SAMPLE to PH_DZ: the inputs are sampled, and the mappings and the movement flags computed from the sample. -/
theorem Ticking.samples_and_maps (h : Ticking s) (hph : s.ph = 2#4) :
    ∃ u, runSteps 4 s = .next u ∧ Ticking u ∧ u = { s with
      rdX := s.inX, rdY := s.inY, curX := u.curX, curY := u.curY, cellRow := u.cellRow, cellCol := u.cellCol,
      movX := u.movX, movY := u.movY, ph := 6#4, freeCount := u.freeCount } :=
  ⟨_, h.phase_then hph (by decide) rfl (whenLive_live h.live _) <|
    Ticking.phase_then (p := 3#4) ⟨h.live, h.undisturbed, h.silent⟩ rfl (by decide) rfl (exec_phMapd_live h.live) <|
    Ticking.phase_then (p := 4#4) ⟨h.live, h.undisturbed, h.silent⟩ rfl (by decide) rfl (exec_phMapm_live h.live) <|
    Ticking.phase_then (p := 5#4) ⟨h.live, h.undisturbed, h.silent⟩ rfl (by decide) rfl (whenLive_live h.live _) rfl,
    ⟨h.live, h.undisturbed, h.silent⟩, rfl⟩

/-- PH_MBUF to PH_DRAW: the buffer is rebuilt and sent, and the cursor drawn. -/
theorem Ticking.sends_and_draws (h : Ticking s) (hph : s.ph = 6#4) (hcolour : s.colSel ≠ 3#2) :
    ∃ u words, runSteps 3 s = .next u ∧ Ticking u ∧ u = { s with
      mbuf := u.mbuf, ph := 9#4, out := s.out ++ [⟨s.T, .mx words⟩] ++ [⟨s.T, .draw s.curX s.curY⟩] } := by
  obtain ⟨colour, hcolour⟩ := exists_selectedColour s.cfg hcolour
  exact ⟨_, _, h.phase_then hph (by decide) rfl (exec_phMbuf_selected h.live hcolour) <|
    Ticking.phase_then (p := 7#4) ⟨h.live, h.undisturbed, h.silent⟩ rfl (by decide) rfl (exec_phMsend_live h.live) <|
    Ticking.phase_then (p := 8#4) ⟨h.live, h.undisturbed, h.silent⟩ rfl (by decide) rfl (exec_phDraw_live h.live) rfl,
    ⟨h.live, h.undisturbed, h.silent⟩, rfl⟩

/-- The service slots with no request pending pass on to the sleep (R213, R216 to R218). -/
theorem Ticking.passes_slots (h : Ticking s) (hph : s.ph = 9#4) (hnone : ∀ k, melreq s k = false) :
    runSteps 3 s = .next { s with ph := 13#4, dl := s.T + 50000 } := by
  have hslot {v : State} (hlive : v.held = false) {k : MelodyNo} (hk : melreq v k = false) :
      exec (slotOp k) v = .next (afterSlot v k) := by rw [exec_slotOp hlive, serviceSlot_of_clear hk]
  exact h.phase_then hph (by decide) rfl (hslot (k := .one) h.live (hnone .one)) <|
    Ticking.phase_then (p := 10#4) ⟨h.live, h.undisturbed, h.silent⟩ rfl (by decide) rfl
      (hslot (k := .two) h.live (hnone .two)) <|
    Ticking.phase_then (p := 11#4) (n := 0) ⟨h.live, h.undisturbed, h.silent⟩ rfl (by decide) rfl
      (hslot (k := .three) h.live (hnone .three)) (congrArg _ (afterSlot_three _))

/-- The sleep takes what is left to its deadline (R219). -/
theorem Ticking.sleeps (h : Ticking s) (hph : s.ph = 13#4) (hdl : s.dl = s.T + n) (hpos : 0 < n) (hadv : n ≤ s.adv) :
    runSteps 2 s = .next { elapse n s with ph := 1#4 } := by
  have hwait : waitingPair s = true := (waitingPair_iff s).mpr (.inr ⟨by rw [hph]; rfl, by rw [h.silent]; rfl⟩)
  have hoff : mainEnabled s = false := Bool.eq_false_iff.mpr fun hen => by
    have hdue := mainEnabled_sleep hen hph
    omega
  have hpass : step s = .next (elapse n s) := by
    have hgap : s.dl - s.T = n := by omega
    rw [step_time h.undisturbed hoff (by omega), passTime_to_deadline hoff hwait (by omega), hgap]
    rfl
  have hlater : Ticking (elapse n s) := ⟨h.live, h.undisturbed, h.silent⟩
  have hdue : (elapse n s).dl ≤ (elapse n s).T := Nat.le_of_eq hdl
  have hen : mainEnabled (elapse n s) = true := mainEnabled_at_deadline h.live hwait hdue (s.adv - n)
  have hop : mainStep (elapse n s) = exec .phSleep (elapse n s) :=
    mainStep_eq hlater.undisturbed (by rw [show (elapse n s).ph = 13#4 from hph]; rfl)
  have hwake : step (elapse n s) = .next { elapse n s with ph := 1#4 } := by
    rw [step_main hlater.undisturbed hen, hop, exec_phSleep_due hlater.live hdue]
  exact runSteps_add (runSteps_one hpass) (runSteps_one hwake)

/-! ### The tick -/

/-- From PH_RGB into the sleep with no request pending: what the eleven phases write, and what they send. -/
theorem Ticking.reaches_sleep (h : Ticking s) (hregs : RegInv s) (hph : s.ph = 1#4) (hnone : ∀ k, melreq s k = false) :
    ∃ t leds words, runSteps 11 s = .next t ∧ leds.length ≤ 1 ∧ Ticking t ∧ t = { s with
      rgbState := t.rgbState, rgbLast := t.rgbLast, ledR := t.ledR, ledG := t.ledG, ledB := t.ledB, rdX := s.inX, rdY := s.inY,
      curX := t.curX, curY := t.curY, cellRow := t.cellRow, cellCol := t.cellCol, movX := t.movX, movY := t.movY,
      mbuf := t.mbuf, ph := 13#4, dl := s.T + 50000, freeCount := t.freeCount,
      out := s.out ++ leds ++ [⟨s.T, .mx words⟩] ++ [⟨s.T, .draw t.curX t.curY⟩] } := by
  obtain ⟨u, leds, hrgb, hleds, hticksU, hu⟩ := h.cycles_colours hph hregs.rgbStateLegal
  obtain ⟨v, hmaps, hticksV, hv⟩ := hticksU.samples_and_maps (congrArg State.ph hu)
  rw [hu] at hv
  have hcolour : v.colSel ≠ 3#2 := ne_of_eq_of_ne (congrArg State.colSel hv) hregs.colSelLegal
  obtain ⟨w, words, hsends, hticksW, hw⟩ := hticksV.sends_and_draws (congrArg State.ph hv) hcolour
  rw [hv] at hw
  have hclear (k : MelodyNo) : melreq w k = false := by rw [← hnone k, hw]; cases k <;> rfl
  have hslots := hticksW.passes_slots (congrArg State.ph hw) hclear
  refine ⟨{ w with ph := 13#4, dl := w.T + 50000 }, leds, words,
    runSteps_add hrgb (runSteps_add hmaps (runSteps_add hsends hslots)), hleds, ?_, ?_⟩
  · exact ⟨hticksW.live, hticksW.undisturbed, hticksW.silent⟩
  · rw [hw]

/-- Settles O57: the eleven phases (`Ticking.reaches_sleep`), then the sleep of T_LOOP (`Ticking.sleeps`). -/
theorem tickTakesFiftyMilliseconds : Obligations.TickTakesFiftyMilliseconds :=
  fun s hinv hlive htrace hph hnone1 hnone2 hnone3 => by
  have hticks : Ticking s := ⟨hlive, htrace, hinv.note.playIdle.mpr (by rw [hph]; decide)⟩
  have hnone (k : MelodyNo) : melreq s k = false := by cases k <;> assumption
  obtain ⟨t, leds, words, hrun, hleds, hticksT, ht⟩ := hticks.reaches_sleep hinv.regs hph hnone
  have hkept {α : Type} (f : State → α) := congrArg f ht
  refine ⟨⟨t, leds, words, hrun, hkept State.T, hkept State.ph, hkept State.dl, hkept State.rdX, hkept State.rdY, hleds, ?_⟩,
    fun hadv => ?_⟩
  · exact (hkept State.out).trans (by simp)
  · have hT : t.T = s.T := hkept State.T
    have hleft : t.adv = s.adv := hkept State.adv
    have hdl : t.dl = t.T + 50000 := by rw [hT]; exact hkept State.dl
    have hsleep := hticksT.sleeps (hkept State.ph) hdl (by decide) (by rw [hleft]; exact hadv)
    refine ⟨_, runSteps_add hrun hsleep, ?_, ?_, rfl⟩
    · show t.T + 50000 = s.T + 50000
      rw [hT]
    · show t.adv - 50000 = s.adv - 50000
      rw [hleft]

end

end Sys2Proof.Machine
end

section
/-! SUPPORT. The footprint of the EDGE agent (60_exceptions.md R245; 10_state.md R31, R32): the registers that a press of either button
may write, none of which MAIN's enabling condition reads. -/

namespace Sys2Proof.Machine

/-- `s` with the registers that an EDGE step may write taken from `u`: the footprints of BTN A and BTN B together. -/
def edgeFootprint (s u : State) : State :=
  { s with debLast := u.debLast, rgbEn := u.rgbEn, sel := u.sel, colSel := u.colSel, melreq1 := u.melreq1, melreq2 := u.melreq2,
           melreq3 := u.melreq3, ledR := u.ledR, ledG := u.ledG, ledB := u.ledB, out := u.out }

section

variable {i : Instr} {s t : State}

/-- A press that answers writes EDGE's registers alone, accepted or rejected. -/
theorem edge_framed (hi : i = .btnA ∨ i = .btnB) (h : exec i s = .next t) : t = edgeFootprint s t := by
  have hframed : Framed i s t := exec_framed i s t h
  rcases hi with rfl | rfl
  · rw [hframed]; rfl
  · rw [hframed]; rfl

/-- MAIN's enabling condition (46_main_sequencer.md R205) reads `ph`, `ms`, `dl` and `T`, and no register of EDGE. -/
theorem mainEnabled_edgeFootprint (s u : State) : mainEnabled (edgeFootprint s u) = mainEnabled s := rfl

end

/-- Settles O45: both presses write inside EDGE's footprint (`edge_framed`), which holds none of the fields named and nothing that MAIN's
enabling condition reads (`mainEnabled_edgeFootprint`). -/
theorem edgeStepsLeaveMainAlone : Obligations.EdgeStepsLeaveMainAlone := fun i s t hi h => by
  have hmain : mainEnabled t = mainEnabled s :=
    (congrArg mainEnabled (edge_framed hi h)).trans (mainEnabled_edgeFootprint s t)
  simp only [hmain, and_true]
  rw [edge_framed hi h]
  and_intros <;> rfl

end Sys2Proof.Machine
end

section
/-! SUPPORT. The block held in reset (70_reset_and_hazards.md R271), and the two phases that latch the input levels: PH_INIT (R273) and
PH_SAMPLE (46_main_sequencer.md R214). -/

namespace Sys2Proof.Machine

section

variable {s : State}

/-! ### Held in reset (R271) -/

theorem mainEnabled_held (hheld : s.held = true) : mainEnabled s = false :=
  Bool.eq_false_iff.mpr fun hen => Bool.false_ne_true (((mainEnabled_iff s).mp hen).1.symm.trans hheld)

theorem exec_adv_held (hheld : s.held = true) (n : BitVec 28) : exec (.adv n) s = .refused .heldInReset := whenLive_held hheld _

theorem exec_press_held (hheld : s.held = true) (btn : Button) : exec (pseudoPress btn) s = .refused .heldInReset :=
  (exec_press s btn).trans (whenLive_held hheld _)

/-- RST answers in every state, and its answer is not held (R270). -/
theorem exec_rst_live (s : State) : ∃ t, exec .rst s = .next t ∧ t.held = false := by
  obtain ⟨t, hexec, hlive, _⟩ := rstGivesEveryResetValue s
  exact ⟨t, hexec, hlive⟩

/-! ### The latches (R273, R214) -/

theorem exec_phInit_live (hlive : s.held = false) : exec .phInit s = .next { s with calX := s.inX, calY := s.inY, ph := 1#4 } :=
  whenLive_live hlive _

theorem exec_phSample_live (hlive : s.held = false) : exec .phSample s = .next { s with rdX := s.inX, rdY := s.inY, ph := 3#4 } :=
  whenLive_live hlive _

end

/-- Settles O11: the power-on state is the reset state, held. While held, MAIN is off, what `whenLive` guards is refused, JOY answers as
in every state (O14), and RST as in every state (O10). -/
theorem heldInResetBehaviour : Obligations.HeldInResetBehaviour := by
  refine ⟨?powerOn, fun s hheld => ⟨mainEnabled_held hheld, exec_adv_held hheld, exec_press_held hheld .a, exec_press_held hheld .b,
    fun x y hx hy => ?joy, exec_rst_live s⟩⟩
  case powerOn => exact ⟨rfl, rfl, rfl, rfl, rfl⟩
  case joy =>
    obtain ⟨_, haccepted, _⟩ := joySetsTheInputLevels s x y
    exact haccepted ⟨hx, hy⟩

/-- Settles O20: a live phase step answers its own action, which is the latch. -/
theorem initAndSampleLatchTheInputs : Obligations.InitAndSampleLatchTheInputs := fun _ hlive =>
  ⟨exec_phInit_live hlive, exec_phSample_live hlive⟩

end Sys2Proof.Machine
end
